-- ==== Sys2Proof/Word.lean ====
section
/-! DEFINITION. The words of the machine: bytes, 32-bit and 64-bit words (R2). -/

namespace Sys2Proof

/-- A byte. -/
abbrev Byte := BitVec 8
/-- A spindle word, a slot word, a Lathe scalar (R200, R207, R282). -/
abbrev Word32 := BitVec 32
/-- A doubleword: a general register of a spindle slot (R113). -/
abbrev Word64 := BitVec 64

/-- Where an error is detected (Table 20-5 of R336). -/
inductive ErrorSite where
  | hbm (addr : Nat)                          -- an HBM read of the 32-byte sector that holds addr
  | spBank (cluster : BitVec 8) (off : BitVec 22)
  | l2 (slice : BitVec 11) (addr : Nat)       -- a read of the sector that holds addr at its home slice
  | linkLane (port : BitVec 6) (lane : BitVec 2)
  | slotReg (core : BitVec 12) (slot : BitVec 4)
  | latheReg (lathe : BitVec 10)
  | accumulator (lathe : BitVec 10)
  | launchQueue (ctx : BitVec 6) (q : BitVec 4)
  | message (core : BitVec 12) (i : Nat)      -- entry i of a core's inbox and rings
  | chuckFifo (cluster : BitVec 8) (fifo : BitVec 5) (i : Nat)  -- entry i of a Chuck FIFO
  | deque (core : BitVec 12)
  | handleQueue (lathe : BitVec 10)
  | tileEntry (cluster : BitVec 8) (idx : BitVec 10)
  deriving DecidableEq, Repr

end Sys2Proof
end

