-- ==== Sys2Proof/Machine/Maps.lean ====
section
/-! DEFINITION. Finite maps from numbers, and byte memories: lists of key and value pairs in one canonical form. -/

namespace Sys2Proof.Machine

/-- A finite map: pairs of a key and a value, keys rising. -/
abbrev Map (α : Type) := List (Nat × α)

namespace Map

/-- The value at a key. -/
def find? {α : Type} : Map α → Nat → Option α
  | [], _ => none
  | (k', v) :: r, k => if k = k' then some v else find? r k

/-- The value at a key, or the value that an unlisted key has. -/
def get {α : Type} (m : Map α) (k : Nat) (d : α) : α := (find? m k).getD d

/-- Writes the value at a key. -/
def set {α : Type} : Map α → Nat → α → Map α
  | [], k, v => [(k, v)]
  | (k', v') :: r, k, v =>
    if k < k' then (k, v) :: (k', v') :: r
    else if k = k' then (k, v) :: r
    else (k', v') :: set r k v

/-- Removes a key. -/
def erase {α : Type} : Map α → Nat → Map α
  | [], _ => []
  | (k', v') :: r, k => if k = k' then erase r k else (k', v') :: erase r k

end Map

/-- A byte memory: the bytes that are not zero, addresses rising (assumption 3).
DESIGN CHOICE, unsafe: assumption 3. -/
abbrev Memory := List Host.Cell

namespace Memory

/-- An unlisted byte reads as 0 (assumption 3, DESIGN CHOICE, unsafe). -/
def readByte (m : Memory) (a : Nat) : Byte := Map.get m a 0

/-- Writes a byte; writing 0 removes the entry, so that equal memories are equal lists. -/
def writeByte (m : Memory) (a : Nat) (b : Byte) : Memory := if b = 0 then Map.erase m a else Map.set m a b

/-- Addresses strictly rise and no entry is 0: the canonical form, as a check. -/
def wfFrom (lo : Nat) : Memory → Bool
  | [] => true
  | (a, b) :: r => decide (lo ≤ a) && decide (b ≠ 0) && wfFrom (a + 1) r

/-- The canonical form. -/
def wf (m : Memory) : Bool := wfFrom 0 m

/-- n bytes from address a, lowest address first. -/
def readBytes (m : Memory) (a : Nat) : Nat → List Byte
  | 0 => []
  | n + 1 => readByte m a :: readBytes m (a + 1) n

/-- Writes bytes from address a upward. -/
def writeBytes (m : Memory) (a : Nat) : List Byte → Memory
  | [] => m
  | b :: r => writeBytes (writeByte m a b) (a + 1) r

end Memory

/-- The number whose little-endian bytes are given (R2). -/
def leNat : List Byte → Nat
  | [] => 0
  | b :: r => b.toNat + 256 * leNat r

/-- The n little-endian bytes of a number (R2). -/
def leBytes : Nat → Nat → List Byte
  | 0, _ => []
  | n + 1, v => BitVec.ofNat 8 v :: leBytes n (v / 256)

/-- Replaces entry i of a list; nothing changes beyond its end. -/
def setNth {α : Type} : List α → Nat → α → List α
  | [], _, _ => []
  | _ :: r, 0, v => v :: r
  | x :: r, i + 1, v => x :: setNth r i v

/-- Bits hi down to lo of a number. -/
def bitsOf (v hi lo : Nat) : Nat := (v >>> lo) % 2 ^ (hi + 1 - lo)

/-- Bit i of a number. -/
def bitOf (v i : Nat) : Bool := v.testBit i

/-- v with bits hi down to lo replaced by x. -/
def setBits (v hi lo x : Nat) : Nat :=
  v - (bitsOf v hi lo) * 2 ^ lo + (x % 2 ^ (hi + 1 - lo)) * 2 ^ lo

/-- A Bool as a bit. -/
def b2n (b : Bool) : Nat := if b then 1 else 0

/-- The low n bits of a number read as two's complement. -/
def sextInt (n v : Nat) : Int := if v % 2 ^ n < 2 ^ (n - 1) then (v % 2 ^ n : Nat) else ((v % 2 ^ n : Nat) : Int) - (2 ^ n : Nat)

/-- An integer modulo 2^n. -/
def wrapInt (n : Nat) (x : Int) : Nat := (x % ((2 ^ n : Nat) : Int)).toNat

/-- The first number below n, counted from `from'` upward, that satisfies p. -/
def firstFrom (p : Nat → Bool) (lo : Nat) : Nat → Option Nat
  | 0 => none
  | n + 1 => if p lo then some lo else firstFrom p (lo + 1) n

end Sys2Proof.Machine
end

