-- ==== Sys2Proof/Machine/Float.lean ====
section
/-! DEFINITION. Number formats, rounding and the functions of the device's arithmetic (R18 to R24, R33 to R39, R295, R298, R371).
A value is held exactly, as a sign, a whole number and a power of two, and rounded once where a rule says so. -/

namespace Sys2Proof.Machine

/-- A floating format of Table 2-2: exponent bits, mantissa bits, and the two 8-bit formats' own rules. -/
structure FFmt where
  e : Nat
  m : Nat
  noInf : Bool := false     -- E4M3: no infinity; all-ones exponent is normal but for the NaN
  saturates : Bool := false -- E4M3 and E5M2 saturate (R21)
  nan : Nat                 -- the canonical NaN (R20)
  deriving DecidableEq, Repr

def fp64 : FFmt := { e := 11, m := 52, nan := 0x7FF8000000000000 }
def fp32 : FFmt := { e := 8, m := 23, nan := 0x7FC00000 }
def bf16 : FFmt := { e := 8, m := 7, nan := 0x7FC0 }
def fp16 : FFmt := { e := 5, m := 10, nan := 0x7E00 }
def e4m3 : FFmt := { e := 4, m := 3, noInf := true, saturates := true, nan := 0x7F }
def e5m2 : FFmt := { e := 5, m := 2, saturates := true, nan := 0x7E }

/-- The floating format of a format code (Table 2-4); FP64 for every other code. -/
def fmtOfCode (c : Nat) : FFmt :=
  match c with
  | 9 => fp32 | 10 => bf16 | 11 => fp16 | 12 => e4m3 | 13 => e5m2 | _ => fp64

/-- The width in bits of a floating format. -/
def FFmt.width (f : FFmt) : Nat := 1 + f.e + f.m

/-- The exponent bias (Table 2-2). -/
def FFmt.bias (f : FFmt) : Nat := 2 ^ (f.e - 1) - 1

/-- The magnitude code just above the largest finite value. -/
def FFmt.overCode (f : FFmt) : Nat := if f.noInf then f.nan else (2 ^ f.e - 1) * 2 ^ f.m

/-- An exact value: not a number, an infinity, or ±m·2^e (m = 0 is a zero with a sign). -/
inductive FV where
  | nan
  | inf (neg : Bool)
  | fin (neg : Bool) (m : Nat) (e : Int)
  deriving DecidableEq, Repr

/-- The value of an encoding (R19). -/
def toFV (f : FFmt) (v : Nat) : FV :=
  let s := v.testBit (f.e + f.m)
  let ex := bitsOf v (f.e + f.m - 1) f.m
  let mn := v % 2 ^ f.m
  if f.noInf && ex == 2 ^ f.e - 1 && mn == 2 ^ f.m - 1 then .nan
  else if !f.noInf && ex == 2 ^ f.e - 1 then (if mn = 0 then .inf s else .nan)
  else if ex = 0 then .fin s mn (1 - (f.bias : Int) - f.m)
  else .fin s (2 ^ f.m + mn) ((ex : Int) - f.bias - f.m)

/-- The sign bit of an encoding. -/
def signCode (f : FFmt) (neg : Bool) : Nat := if neg then 2 ^ (f.e + f.m) else 0

/-- m·2^e over 2^sh to nearest, ties to even; `sticky`: a part below m that is more than nothing and less than one unit. -/
def rneShift (m sh : Nat) (sticky : Bool) : Nat :=
  let q := m >>> sh
  let r := m % 2 ^ sh
  if sh = 0 then q
  else if r > 2 ^ (sh - 1) || (r == 2 ^ (sh - 1) && (sticky || q % 2 == 1)) then q + 1 else q

/-- R21: the magnitude code of m·2^e rounded to nearest, ties to even, subnormals kept. -/
def roundMag (f : FFmt) (m : Nat) (e : Int) (sticky : Bool) : Nat :=
  if m = 0 then 0 else
  let qmin : Int := 1 - (f.bias : Int) - f.m
  let q : Int := max ((m.log2 : Int) + e - f.m) qmin
  let mant := if q ≤ e then m <<< (e - q).toNat else rneShift m (q - e).toNat sticky
  let code := (q - qmin).toNat * 2 ^ f.m + mant
  if code < f.overCode then code
  else if f.saturates then f.overCode - 1 else f.overCode

/-- An exact value in a format: rounded (R21), a NaN canonical (R20), an infinity as R22 gives. -/
def ofFV (f : FFmt) (x : FV) : Nat :=
  match x with
  | .nan => f.nan
  | .inf s => signCode f s + (if f.noInf then f.overCode - 1 else f.overCode)
  | .fin s m e => signCode f s + roundMag f m e false

/-- A value given by a sign, m·2^e and a sticky part, in a format. -/
def ofSticky (f : FFmt) (neg : Bool) (m : Nat) (e : Int) (sticky : Bool) : Nat :=
  signCode f neg + roundMag f m e sticky

/-- The negated value. -/
def FV.neg : FV → FV
  | .nan => .nan
  | .inf s => .inf (!s)
  | .fin s m e => .fin (!s) m e

/-- m·2^e as a signed whole number of units 2^lo, lo ≤ e. -/
def alignInt (neg : Bool) (m : Nat) (e lo : Int) : Int :=
  let x : Int := ((m <<< (e - lo).toNat : Nat) : Int)
  if neg then -x else x

/-- R371: the exact sum; a zero sum is +0 unless both addends are −0. -/
def FV.add : FV → FV → FV
  | .nan, _ => .nan
  | _, .nan => .nan
  | .inf s, .inf t => if s = t then .inf s else .nan
  | .inf s, .fin _ _ _ => .inf s
  | .fin _ _ _, .inf t => .inf t
  | .fin s m e, .fin t n k =>
    let lo := min e k
    let x := alignInt s m e lo + alignInt t n k lo
    if x = 0 then .fin (s && t && m == 0 && n == 0) 0 0 else .fin (decide (x < 0)) x.natAbs lo

/-- R371: the exact product; a zero times an infinity is NaN. -/
def FV.mul : FV → FV → FV
  | .nan, _ => .nan
  | _, .nan => .nan
  | .inf s, .inf t => .inf (s != t)
  | .inf s, .fin t n _ => if n = 0 then .nan else .inf (s != t)
  | .fin s m _, .inf t => if m = 0 then .nan else .inf (s != t)
  | .fin s m e, .fin t n k => .fin (s != t) (m * n) (e + k)

/-- The value times 2^k, exactly. -/
def FV.scale (x : FV) (k : Int) : FV :=
  match x with
  | .nan => .nan
  | .inf s => .inf s
  | .fin s m e => .fin s m (e + k)

def FV.isNan : FV → Bool
  | .nan => true
  | _ => false

/-- A zero that is negative. -/
def FV.isNegZero : FV → Bool
  | .fin true 0 _ => true
  | _ => false

/-- R371: the exact sum of many values: NaN, or both infinities, give NaN; a zero sum is −0 only when every addend is −0. -/
def FV.sum (xs : List FV) : FV :=
  match xs with
  | [] => .fin false 0 0
  | x :: r => r.foldl FV.add x

/-- R235: the correctly rounded quotient in a format. -/
def divTo (f : FFmt) (a b : FV) : Nat :=
  match a, b with
  | .nan, _ => f.nan
  | _, .nan => f.nan
  | .inf _, .inf _ => f.nan
  | .inf s, .fin t _ _ => ofFV f (.inf (s != t))
  | .fin s _ _, .inf t => signCode f (s != t)
  | .fin s m e, .fin t n k =>
    if n = 0 then (if m = 0 then f.nan else ofFV f (.inf (s != t)))
    else
      let sh := n.log2 + f.m + 4
      let q := (m <<< sh) / n
      ofSticky f (s != t) q (e - k - sh) (decide ((m <<< sh) % n ≠ 0))

/-- The whole square root, from the highest candidate bit down. -/
def isqrtAux (n : Nat) : Nat → Nat → Nat
  | 0, acc => acc
  | b + 1, acc => isqrtAux n b (if (acc + 2 ^ b) * (acc + 2 ^ b) ≤ n then acc + 2 ^ b else acc)

/-- The whole square root of n. -/
def isqrt (n : Nat) : Nat := isqrtAux n (n.log2 / 2 + 1) 0

/-- x rounded to a whole number, ties to even (R22). -/
def roundInt (neg : Bool) (m : Nat) (e : Int) : Int :=
  let mag : Nat := if 0 ≤ e then m <<< e.toNat else rneShift m (-e).toNat false
  if neg then -(mag : Int) else mag

/-- The nearest end of a range (R21 sat). -/
def clampInt (lo hi x : Int) : Int := if x < lo then lo else if hi < x then hi else x

/-- R22: a floating value to an integer range: rounded, then saturated; a NaN gives 0. -/
def fvToInt (lo hi : Int) (x : FV) : Int :=
  match x with
  | .nan => 0
  | .inf s => if s then lo else hi
  | .fin s m e => clampInt lo hi (roundInt s m e)

/-- R22: an integer as an exact value. -/
def intToFV (x : Int) : FV := .fin (decide (x < 0)) x.natAbs 0

/-- A finite or infinite encoding as a number whose order is that of the values, −0 below +0. -/
def orderKey (f : FFmt) (v : Nat) : Int :=
  let mag : Int := ((v % 2 ^ (f.e + f.m) : Nat) : Int)
  if v.testBit (f.e + f.m) then -mag - 1 else mag

/-- As `orderKey`, with −0 and +0 equal. -/
def valueKey (f : FFmt) (v : Nat) : Int :=
  let mag : Int := ((v % 2 ^ (f.e + f.m) : Nat) : Int)
  if v.testBit (f.e + f.m) then -mag else mag

def isNanCode (f : FFmt) (v : Nat) : Bool := (toFV f v).isNan

/-- R236: the greater or lesser operand; NaN if either is; −0 ranks below +0. -/
def fmaxCode (f : FFmt) (a b : Nat) : Nat :=
  if isNanCode f a || isNanCode f b then f.nan else if orderKey f a < orderKey f b then b else a
def fminCode (f : FFmt) (a b : Nat) : Nat :=
  if isNanCode f a || isNanCode f b then f.nan else if orderKey f b < orderKey f a then b else a

/-- Rounded sums, products and fused products in a format. -/
def faddCode (f : FFmt) (a b : Nat) : Nat := ofFV f ((toFV f a).add (toFV f b))
def fsubCode (f : FFmt) (a b : Nat) : Nat := ofFV f ((toFV f a).add (toFV f b).neg)
def fmulCode (f : FFmt) (a b : Nat) : Nat := ofFV f ((toFV f a).mul (toFV f b))
def fmaCode (f : FFmt) (a b d : Nat) : Nat := ofFV f (((toFV f a).mul (toFV f b)).add (toFV f d))

/-- R22: one floating format to another. -/
def fcvtCode (from' to' : FFmt) (v : Nat) : Nat := ofFV to' (toFV from' v)

/-! ### The table-defined exp2 (R33, R34) -/

/-- Entries 0 to 63 of T. -/
def exp2Table0 : List Nat :=
  [0x3F800000, 0x3F7F4ECB, 0x3F7E9E11, 0x3F7DEDD2, 0x3F7D3E0C, 0x3F7C8EC0, 0x3F7BDFED, 0x3F7B3194, 0x3F7A83B3, 0x3F79D64A,
   0x3F79295A, 0x3F787CE1, 0x3F77D0DF, 0x3F772555, 0x3F767A41, 0x3F75CFA4, 0x3F75257D, 0x3F747BCC, 0x3F73D290, 0x3F7329C9,
   0x3F728177, 0x3F71D99A, 0x3F713231, 0x3F708B3B, 0x3F6FE4BA, 0x3F6F3EAB, 0x3F6E9910, 0x3F6DF3E7, 0x3F6D4F30, 0x3F6CAAEC,
   0x3F6C0719, 0x3F6B63B7, 0x3F6AC0C7, 0x3F6A1E47, 0x3F697C38, 0x3F68DA99, 0x3F68396A, 0x3F6798AB, 0x3F66F85B, 0x3F665879,
   0x3F65B907, 0x3F651A03, 0x3F647B6D, 0x3F63DD44, 0x3F633F89, 0x3F62A23C, 0x3F62055B, 0x3F6168E7, 0x3F60CCDF, 0x3F603143,
   0x3F5F9613, 0x3F5EFB4E, 0x3F5E60F5, 0x3F5DC706, 0x3F5D2D82, 0x3F5C9468, 0x3F5BFBB8, 0x3F5B6371, 0x3F5ACB94, 0x3F5A3421,
   0x3F599D16, 0x3F590673, 0x3F587039, 0x3F57DA67]

/-- Entries 64 to 127 of T. -/
def exp2Table1 : List Nat :=
  [0x3F5744FD, 0x3F56AFFA, 0x3F561B5E, 0x3F558729, 0x3F54F35B, 0x3F545FF3, 0x3F53CCF1, 0x3F533A54, 0x3F52A81E, 0x3F52164C,
   0x3F5184DF, 0x3F50F3D7, 0x3F506334, 0x3F4FD2F4, 0x3F4F4319, 0x3F4EB3A1, 0x3F4E248C, 0x3F4D95DA, 0x3F4D078C, 0x3F4C799F,
   0x3F4BEC15, 0x3F4B5EED, 0x3F4AD226, 0x3F4A45C1, 0x3F49B9BE, 0x3F492E1B, 0x3F48A2D8, 0x3F4817F7, 0x3F478D75, 0x3F470353,
   0x3F467991, 0x3F45F02E, 0x3F45672A, 0x3F44DE85, 0x3F44563F, 0x3F43CE57, 0x3F4346CD, 0x3F42BFA1, 0x3F4238D2, 0x3F41B261,
   0x3F412C4D, 0x3F40A695, 0x3F40213B, 0x3F3F9C3C, 0x3F3F179A, 0x3F3E9353, 0x3F3E0F68, 0x3F3D8BD8, 0x3F3D08A4, 0x3F3C85CA,
   0x3F3C034A, 0x3F3B8126, 0x3F3AFF5B, 0x3F3A7DEA, 0x3F39FCD2, 0x3F397C14, 0x3F38FBAF, 0x3F387BA3, 0x3F37FBF0, 0x3F377C95,
   0x3F36FD92, 0x3F367EE7, 0x3F360094, 0x3F358298]

/-- Entries 128 to 191 of T. -/
def exp2Table2 : List Nat :=
  [0x3F3504F3, 0x3F3487A6, 0x3F340AAF, 0x3F338E0E, 0x3F3311C4, 0x3F3295D0, 0x3F321A32, 0x3F319EE9, 0x3F3123F6, 0x3F30A957,
   0x3F302F0E, 0x3F2FB519, 0x3F2F3B79, 0x3F2EC22D, 0x3F2E4934, 0x3F2DD090, 0x3F2D583F, 0x3F2CE041, 0x3F2C6897, 0x3F2BF13F,
   0x3F2B7A3A, 0x3F2B0387, 0x3F2A8D26, 0x3F2A1718, 0x3F29A15B, 0x3F292BEF, 0x3F28B6D5, 0x3F28420C, 0x3F27CD94, 0x3F27596C,
   0x3F26E595, 0x3F26720E, 0x3F25FED7, 0x3F258BEF, 0x3F251958, 0x3F24A70F, 0x3F243516, 0x3F23C36B, 0x3F23520F, 0x3F22E102,
   0x3F227043, 0x3F21FFD2, 0x3F218FAF, 0x3F211FD9, 0x3F20B051, 0x3F204116, 0x3F1FD228, 0x3F1F6387, 0x3F1EF532, 0x3F1E872A,
   0x3F1E196E, 0x3F1DABFE, 0x3F1D3EDA, 0x3F1CD201, 0x3F1C6573, 0x3F1BF931, 0x3F1B8D3A, 0x3F1B218D, 0x3F1AB62B, 0x3F1A4B13,
   0x3F19E046, 0x3F1975C2, 0x3F190B88, 0x3F18A197]

/-- Entries 192 to 256 of T. -/
def exp2Table3 : List Nat :=
  [0x3F1837F0, 0x3F17CE92, 0x3F17657D, 0x3F16FCB1, 0x3F16942D, 0x3F162BF2, 0x3F15C3FF, 0x3F155C53, 0x3F14F4F0, 0x3F148DD4,
   0x3F1426FF, 0x3F13C072, 0x3F135A2B, 0x3F12F42C, 0x3F128E72, 0x3F122900, 0x3F11C3D3, 0x3F115EED, 0x3F10FA4D, 0x3F1095F2,
   0x3F1031DC, 0x3F0FCE0C, 0x3F0F6A81, 0x3F0F073B, 0x3F0EA43A, 0x3F0E417D, 0x3F0DDF04, 0x3F0D7CD0, 0x3F0D1ADF, 0x3F0CB933,
   0x3F0C57CA, 0x3F0BF6A4, 0x3F0B95C2, 0x3F0B3523, 0x3F0AD4C6, 0x3F0A74AD, 0x3F0A14D5, 0x3F09B541, 0x3F0955EE, 0x3F08F6DD,
   0x3F08980F, 0x3F083981, 0x3F07DB35, 0x3F077D2B, 0x3F071F62, 0x3F06C1D9, 0x3F066491, 0x3F06078A, 0x3F05AAC3, 0x3F054E3D,
   0x3F04F1F6, 0x3F0495F0, 0x3F043A29, 0x3F03DEA1, 0x3F038359, 0x3F032850, 0x3F02CD87, 0x3F0272FC, 0x3F0218AF, 0x3F01BEA1,
   0x3F0164D2, 0x3F010B41, 0x3F00B1ED, 0x3F0058D8, 0x3F000000]

/-- R33: T[n] = rne32(2^(−n/256)). -/
def exp2T (n : Nat) : Nat :=
  if n < 64 then exp2Table0.getD n 0 else if n < 128 then exp2Table1.getD (n - 64) 0
  else if n < 192 then exp2Table2.getD (n - 128) 0 else exp2Table3.getD (n - 192) 0

/-- rne32 of an exact value, as an encoding. -/
def rne32 (x : FV) : Nat := ofFV fp32 x

/-- R34 `interp`, for u = m·2^−k with 0 ≤ u ≤ 1. -/
def interp (m k : Nat) : Nat :=
  let i := min ((256 * m) >>> k) 255
  let g : FV := .fin false (256 * m - (i <<< k)) (-(k : Int))
  let t0 := toFV fp32 (exp2T i)
  let dd := rne32 ((toFV fp32 (exp2T (i + 1))).add t0.neg)
  let pr := rne32 ((toFV fp32 dd).mul g)
  rne32 (t0.add (toFV fp32 pr))

/-- A magnitude code of FP32 below the smallest normal value is replaced by a zero of the same sign (R23). -/
def flush32 (v : Nat) : Nat := if v % 2 ^ 31 < 2 ^ 23 then v - v % 2 ^ 31 else v

/-- R34: exp2t of an FP32 encoding. -/
def exp2t (x : Nat) : Nat :=
  match toFV fp32 (flush32 x) with
  | .nan => fp32.nan
  | .inf s => if s then 0 else 0x7F800000
  | .fin s m e =>
    if m = 0 then 0x3F800000
    else if 0 ≤ e then (if s then 0 else 0x7F800000)   -- a magnitude of 2^23 or more
    else
      let k := (-e).toNat
      let n := m >>> k               -- floor of the magnitude
      let f := m % 2 ^ k             -- its fraction, f·2^−k
      if s then
        let res := interp f k
        if n > 200 then 0
        else if res / 2 ^ 23 ≤ n then 0 else res - n * 2 ^ 23
      else if n > 200 then 0x7F800000
      else if f = 0 then (if n ≥ 128 then 0x7F800000 else (n + 127) * 2 ^ 23)
      else
        let u := rne32 (.fin false (2 ^ k - f) (-(k : Int)))
        let res := match toFV fp32 u with
          | .fin _ um ue => interp (if 0 ≤ ue then um <<< ue.toNat else um) (if 0 ≤ ue then 0 else (-ue).toNat)
          | _ => 0
        if res / 2 ^ 23 + (n + 1) ≥ 255 then 0x7F800000 else res + (n + 1) * 2 ^ 23

/-! ### Reciprocal, logarithm and trigonometric functions (R35, R298) -/

/-- R35: the correctly rounded reciprocal, flushed (R23). -/
def frcp (x : Nat) : Nat :=
  match toFV fp32 (flush32 x) with
  | .fin s m e => if m = 0 then ofFV fp32 (.inf s) else flush32 (divTo fp32 (.fin false 1 0) (.fin s m e))
  | v => flush32 (divTo fp32 (.fin false 1 0) v)

/-- R35: the correctly rounded reciprocal square root. With m·2^e, e even, and r the whole square root of
2^120/m, the value is r·2^(−60 − e/2) and a sticky part. -/
def frsqrt (x : Nat) : Nat :=
  match toFV fp32 (flush32 x) with
  | .nan => fp32.nan
  | .inf s => if s then fp32.nan else 0
  | .fin s m e =>
    if m = 0 then ofFV fp32 (.inf s)
    else if s then fp32.nan
    else
      let odd := e % 2 != 0
      let m' := if odd then 2 * m else m
      let e' := if odd then e - 1 else e
      let r := isqrt (2 ^ 120 / m')
      ofSticky fp32 false r (-60 - e' / 2) (decide (r * r * m' ≠ 2 ^ 120))

/-- The next n binary digits of log2 y, 1 ≤ y < 2, y held as y·2^300: square, and take the digit when it reaches 2.
The truncation of 300 bits stays below the 120 digits taken. -/
def log2Digits : Nat → Nat → Nat → Nat
  | 0, _, acc => acc
  | n + 1, y, acc =>
    let z := (y * y) >>> 300
    if z ≥ 2 ^ 301 then log2Digits n (z >>> 1) (2 * acc + 1) else log2Digits n z (2 * acc)

/-- R298 flog2. log2 of a value that is no power of two is irrational, so the digits taken never end it.
DEDUCED, unsafe: assumption 67. -/
def flog2 (x : Nat) : Nat :=
  match toFV fp32 (flush32 x) with
  | .nan => fp32.nan
  | .inf s => if s then fp32.nan else 0x7F800000
  | .fin s m e =>
    if m = 0 then 0xFF800000
    else if s then fp32.nan
    else
      let k : Int := (m.log2 : Int) + e
      if m = 2 ^ m.log2 then rne32 (intToFV k)
      else
        let d := log2Digits 120 (m <<< (300 - m.log2)) 0
        if 0 ≤ k then ofSticky fp32 false (k.toNat * 2 ^ 120 + d) (-120) true
        else ofSticky fp32 true ((-k).toNat * 2 ^ 120 - d - 1) (-120) true

/-- floor(π·2^420). -/
def piFixed : Nat := 0x3243f6a8885a308d313198a2e03707344a4093822299f31d0082efa98ec4e6c89452821e638d01377be5466cf34e90c6cc0ac29b7c

/-- The alternating series of sine (d = 1, term = θ) and cosine (d = 0, term = 1), in units of 2^−420; t2 = θ². -/
def trigSeries (t2 : Nat) : Nat → Nat → Nat → Int
  | 0, _, term => term
  | n + 1, d, term => (term : Int) - trigSeries t2 n (d + 2) (((term * t2) >>> 420) / ((d + 1) * (d + 2)))

/-- sin(π·y·2^−k) for 0 < y·2^−k ≤ 1/4, in units of 2^−420. -/
def sinQuarter (y k : Nat) : Nat :=
  let th := (piFixed * y) >>> k
  (trigSeries ((th * th) >>> 420) 45 1 th).toNat

/-- cos(π·y·2^−k) for 0 ≤ y·2^−k ≤ 1/4, in units of 2^−420. -/
def cosQuarter (y k : Nat) : Nat :=
  let th := (piFixed * y) >>> k
  (trigSeries ((th * th) >>> 420) 45 0 (2 ^ 420)).toNat

/-- sin(π·y·2^−k) rounded to FP32, for 0 < y·2^−k < 1/2: irrational but at the quarter points the callers take out, so
the 420 digits taken never end it. -/
def sinHalf (neg : Bool) (y k : Nat) : Nat :=
  flush32 (ofSticky fp32 neg (if 4 * y ≤ 2 ^ k then sinQuarter y k else cosQuarter (2 ^ k - 2 * y) (k + 1)) (-420) true)

/-- As `sinHalf`, for the cosine. -/
def cosHalf (neg : Bool) (y k : Nat) : Nat :=
  flush32 (ofSticky fp32 neg (if 4 * y ≤ 2 ^ k then cosQuarter y k else sinQuarter (2 ^ k - 2 * y) (k + 1)) (-420) true)

/-- |x| modulo 2 as y·2^−k, for a finite x. -/
def halfTurns (m : Nat) (e : Int) : Nat × Nat :=
  let k := (-e).toNat
  ((if 0 ≤ e then m <<< e.toNat else m) % 2 ^ (k + 1), k)

/-- R298 fsin: rne32(sin(π·x)).
DEDUCED, unsafe: assumption 67. -/
def fsin (x : Nat) : Nat :=
  match toFV fp32 (flush32 x) with
  | .nan => fp32.nan
  | .inf _ => fp32.nan
  | .fin s m e =>
    let (y0, k) := halfTurns m e
    let neg := s != decide (2 ^ k ≤ y0)
    let y1 := y0 % 2 ^ k
    let y := if 2 ^ k < 2 * y1 then 2 ^ k - y1 else y1
    if y = 0 then signCode fp32 s
    else if 2 * y = 2 ^ k then signCode fp32 neg + 0x3F800000
    else sinHalf neg y k

/-- R298 fcos: rne32(cos(π·x)).
DEDUCED, unsafe: assumption 67. -/
def fcos (x : Nat) : Nat :=
  match toFV fp32 (flush32 x) with
  | .nan => fp32.nan
  | .inf _ => fp32.nan
  | .fin _ m e =>
    let (y0, k) := halfTurns m e
    let y1 := y0 % 2 ^ k
    let neg := decide (2 ^ k ≤ y0) != decide (2 ^ k < 2 * y1)
    let y := if 2 ^ k < 2 * y1 then 2 ^ k - y1 else y1
    if y = 0 then signCode fp32 neg + 0x3F800000
    else if 2 * y = 2 ^ k then 0
    else cosHalf neg y k

end Sys2Proof.Machine
end

