-- ==== Sys2Proof/Machine/Flags.lean ====
section
/-! DEFINITION. Comparisons and their result codes. The machine has no flag register; `fcmp` and the Lathe compares write their
outcome to a register (R236, R283, R294). -/

namespace Sys2Proof.Machine

/-- 1 for true, 0 for false, as a doubleword. -/
def boolWord (b : Bool) : Word64 := if b then 1 else 0

/-- R236: 1 less, 2 equal, 4 greater, 8 unordered, of two FP64 encodings. -/
def fcmpResult (a b : Nat) : Nat :=
  if isNanCode fp64 a || isNanCode fp64 b then 8
  else if valueKey fp64 a < valueKey fp64 b then 1
  else if valueKey fp64 a = valueKey fp64 b then 2 else 4

/-- R283, R294: the condition cc of two integer lanes of w bits: 0 eq, 1 ne, 2 lt, 3 ge (by the signedness of the lane),
4 ltu, 5 geu. -/
def intCond (cc w : Nat) (signed : Bool) (a b : Nat) : Bool :=
  let lt := if signed then decide (sextInt w a < sextInt w b) else decide (a < b)
  match cc with
  | 0 => a == b
  | 1 => a != b
  | 2 => lt
  | 3 => !lt
  | 4 => decide (a < b)
  | _ => decide (b ≤ a)

/-- R294: the condition cc of two floating lanes: −0 equals +0; a NaN makes eq, lt and ge false and ne true. -/
def floatCond (cc : Nat) (f : FFmt) (a b : Nat) : Bool :=
  let nan := isNanCode f a || isNanCode f b
  match cc with
  | 0 => !nan && valueKey f a == valueKey f b
  | 1 => nan || valueKey f a != valueKey f b
  | 2 => !nan && decide (valueKey f a < valueKey f b)
  | _ => !nan && decide (valueKey f b ≤ valueKey f a)

end Sys2Proof.Machine
end

