-- ==== Sys2Proof/Config.lean ====
section
/-! DEFINITION. What an implementation or the module's fuses fix, and the free values: constants without a body, so that nothing
can be proved of their values. -/

namespace Sys2Proof.Config

/-- Free choices, one for each value of a plain counter in State (assumption 2). -/
opaque freeBool : Nat → Bool
/-- Free choices about one address, by the count of free values and the address (R68). -/
opaque freeView : Nat → Nat → Bool
/-- Free bytes. -/
opaque freeByte : Nat → BitVec 8
/-- Free numbers: the turn an agent takes where no rule orders the agents (assumption 1). -/
opaque freeNat : Nat → Nat

/-- Firmware and fuses (R362, R363, R370; assumption 9): values that the module's makers set. The image in the boot flash: its bytes other
than the signature, the signature, its version and rollback counter; the key that verifies it, and what the fuses hold. -/
opaque firmwareBody : List (BitVec 8)
opaque firmwareSignature : List (BitVec 8)
opaque verifyingKey : List (BitVec 8)
opaque fusedKeyDigest : List (BitVec 8)
opaque fusedRollback : BitVec 16
opaque siliconRevision : BitVec 32
opaque firmwareVersion : BitVec 32
opaque rollbackCounter : BitVec 16
opaque moduleNumber : BitVec 10
/-- The fused seed, 32 bytes. -/
opaque fusedSeed : Nat → BitVec 8
/-- Falcon-1024 (R362, R363): whether a signature of a message passes under a public key; the bytes of the public key, and the signature
of a message, under the key pair whose generation takes its randomness from a stream of bytes. -/
opaque falconVerify : List (BitVec 8) → List (BitVec 8) → List (BitVec 8) → Bool
opaque falconPublicKey : (Nat → BitVec 8) → Nat → BitVec 8
opaque falconSign : (Nat → BitVec 8) → List (BitVec 8) → List (BitVec 8)
/-- The layout of a manifest's body (R366): fctr, payload, δ, wb, hb and the digest. -/
opaque manifestBody : Nat → Nat → Nat → Nat → Nat → List (BitVec 8) → List (BitVec 8)

end Sys2Proof.Config
end

