-- ==== Sys2Proof/Syntax.lean ====
section
/-! DEFINITION. The instructions and events of the J4M: one constructor for each row of the opcode table.
Operand fields are named as Table 14-1 and Tables 14-6 to 14-9 name them (`ta`, `tb` are the trap-if-empty bits).
An instruction acts in the spindle slot or the Lathe that issues it, and an event without operands at the unit whose turn it is:
State names that unit, as it names the operands of the event. Events that bring data from outside the module carry it. -/

namespace Sys2Proof

/-- One constructor for each row of spec/opcode_table.json, in those without operands last: events of the device and its host,
spindle instructions (Tables 14-2 to 14-4), Lathe slot operations (Tables 14-6 to 14-9) and the three decode events. -/
inductive Instr where
  /-- R4. A write to a control, management or link register that has no row of its own replaces or clears its fields by its access code. -/
  | registerWrite (off : Nat) (v : BitVec 64)
  /-- R73. CCTL command LOAD moves a FREE context index to LOADING and starts the read of the descriptor at addr. -/
  | load (ctx : BitVec 6) (addr : BitVec 44)
  /-- R76. CCTL command SAVE moves a RUNNING or CHECKPOINTED context to SAVING and starts a full or compact save. -/
  | save (ctx : BitVec 6) (addr : BitVec 44)
  /-- R73. CCTL command FORCE moves a RUNNING, CHECKPOINTED or FAULTED context to SAVING and starts a full save. -/
  | force (ctx : BitVec 6) (addr : BitVec 44)
  /-- R77. CCTL command RESTORE moves a FREE or SAVED index to RESTORING and starts reading the save area at addr. -/
  | restore (ctx : BitVec 6) (addr : BitVec 44)
  /-- R78. CCTL command TEARDOWN starts refuting hypotheses, freeing slots, flushing queues, returning tiles, dropping pins and invalidating TLB entries of the context. -/
  | teardown (ctx : BitVec 6) (addr : BitVec 44)
  /-- R92. A host write to LQPOST posts a launch record address to a launch queue, or drops it and sets ovf. -/
  | lqpost (ctx : BitVec 6) (q : BitVec 4) (rec : BitVec 64)
  /-- R173. TLBINV command 1 starts invalidating every TLB translation of the page holding vpn for the context and sets busy. -/
  | tlbinvPage (ctx : BitVec 6) (vpn : BitVec 37)
  /-- R173. TLBINV command 2 starts invalidating every TLB entry of the context and sets busy. -/
  | tlbinvContext (ctx : BitVec 6)
  /-- R176. A PEVICT command starts eviction of a resident managed page, or reports res 4 or 5. -/
  | pevict (ctx : BitVec 6) (vpn : BitVec 37)
  /-- R175. A write to FPUSH appends a free frame to the context's frame ring, or drops it and sets ovf. -/
  | fpush (ctx : BitVec 6) (frame : BitVec 35)
  /-- R188. Setting en in LPCTL moves a DOWN port to TRAINING. -/
  | portEnable (port : BitVec 6)
  /-- R188. Clearing en in LPCTL takes an UP or DEGRADED port DOWN and ends its outstanding requests UNREACH. -/
  | portDisable (port : BitVec 6)
  /-- R338. SPILLCMD command 1 spills the named slot to the spill region, or reports res 3. -/
  | spillcmdSpill (ctx : BitVec 6) (core : BitVec 12) (slot : BitVec 4)
  /-- R338. SPILLCMD command 2 re-admits the slot record of a tid as a restore message. -/
  | spillcmdReadmit (ctx : BitVec 6) (tid : BitVec 16)
  /-- R363. ATTREQ command 1 starts an attestation report into the buffer at addr, or refuses it with res 3. -/
  | attreqStart (addr : BitVec 44)
  /-- R365. An MKPOST command posts a mark descriptor to the mark unit, which checks it and refuses it or starts the job; a post while busy is dropped with ovf. -/
  | mkpost (desc : BitVec 50)
  /-- R366. When the marked frame and the signed manifest have been written to the host, MKSTAT shows done, or failed with status 2 on a host write error. -/
  | markJobComplete (hostOk : Bool)
  /-- R368. While power or temperature exceeds its limit, the arithmetic clock stops for one 51.2 ns interval and THR increments. -/
  | throttleInterval (power : BitVec 16) (temps : BitVec 64)
  /-- R368. At 110 degrees C on any die the module removes its 48 V load and requires reset. -/
  | thermalTrip (temps : BitVec 64)
  /-- R189. A received flit is checked by CRC, its packets delivered in sequence, or a replay requested and a lasting lane fault handled. -/
  | flitReceive (port : BitVec 6) (flit : BitVec 2048) (laneErr : BitVec 4)
  /-- R188. When lane training completes, the port becomes UP or DEGRADED with its generation and width recorded. -/
  | trainingDone (port : BitVec 6) (lanes : BitVec 4) (gen : BitVec 2)
  /-- R197. The host attachment trains to the highest mode that both ends support. -/
  | hostLinkTrain (mode : BitVec 5)
  /-- R198. A host CXL.mem or BAR2 access is performed at the home slice, or poisoned or dropped for an MK frame. -/
  | hostMemAccess (write : Bool) (addr : BitVec 44) (n : Nat) (data : List (BitVec 8))
  /-- R336. A detected error is retried once, counting as transient or taking the lasting effects of Table 20-5. -/
  | errorRetry (site : ErrorSite) (ok : Bool)
  /-- R225. Adds a sign-extended 13-bit immediate. -/
  | addi (d a : BitVec 5) (ta : BitVec 1) (imm : BitVec 13)
  /-- R225. Ands with a sign-extended immediate. -/
  | andi (d a : BitVec 5) (ta : BitVec 1) (imm : BitVec 13)
  /-- R225. Ors with a sign-extended immediate. -/
  | ori (d a : BitVec 5) (ta : BitVec 1) (imm : BitVec 13)
  /-- R225. Xors with a sign-extended immediate. -/
  | xori (d a : BitVec 5) (ta : BitVec 1) (imm : BitVec 13)
  /-- R225. Shifts left by an immediate count 0-63. -/
  | shli (d a : BitVec 5) (ta : BitVec 1) (imm : BitVec 13)
  /-- R225. Shifts right logically by an immediate count. -/
  | shri (d a : BitVec 5) (ta : BitVec 1) (imm : BitVec 13)
  /-- R225. Shifts right arithmetically by an immediate count. -/
  | srai (d a : BitVec 5) (ta : BitVec 1) (imm : BitVec 13)
  /-- R225. Writes 1 if the register equals the immediate. -/
  | cmpeqi (d a : BitVec 5) (ta : BitVec 1) (imm : BitVec 13)
  /-- R225. Writes 1 if the register is signed-less than the immediate. -/
  | cmplti (d a : BitVec 5) (ta : BitVec 1) (imm : BitVec 13)
  /-- R226. Writes a sign-extended 13-bit immediate. -/
  | movi (d : BitVec 5) (imm : BitVec 13)
  /-- R226. Shifts a left by 13 and inserts 13 immediate bits. -/
  | movhi (d a : BitVec 5) (ta : BitVec 1) (imm : BitVec 13)
  /-- R230. Extracts a bit field zero-extended. -/
  | bfx (d a : BitVec 5) (ta : BitVec 1) (wm1 pos : BitVec 6)
  /-- R230. Inserts a bit field into d. -/
  | bfi (d a : BitVec 5) (ta : BitVec 1) (wm1 pos : BitVec 6)
  /-- R232. Assembles a packet word from lanes by a field-layout entry. -/
  | fpack (d a : BitVec 5) (ta : BitVec 1) (entry : BitVec 5)
  /-- R232. Parses fields of a packet word into lanes by a field-layout entry. -/
  | fpick (d a : BitVec 5) (ta : BitVec 1) (entry : BitVec 5)
  /-- R223. Adds modulo 2^64. -/
  | add (d a b : BitVec 5) (ta tb : BitVec 1)
  /-- R223. Subtracts modulo 2^64. -/
  | sub (d a b : BitVec 5) (ta tb : BitVec 1)
  /-- R223. Low 64 bits of the product. -/
  | mul (d a b : BitVec 5) (ta tb : BitVec 1)
  /-- R223. High 64 bits of the signed product. -/
  | mulh (d a b : BitVec 5) (ta tb : BitVec 1)
  /-- R223. High 64 bits of the unsigned product. -/
  | mulhz (d a b : BitVec 5) (ta tb : BitVec 1)
  /-- R224. Signed quotient, long-latency, never traps. -/
  | div (d a b : BitVec 5) (ta tb : BitVec 1)
  /-- R224. Unsigned quotient, long-latency. -/
  | divz (d a b : BitVec 5) (ta tb : BitVec 1)
  /-- R224. Signed remainder with the sign of A. -/
  | rem (d a b : BitVec 5) (ta tb : BitVec 1)
  /-- R224. Unsigned remainder. -/
  | remz (d a b : BitVec 5) (ta tb : BitVec 1)
  /-- R223. Bitwise and. -/
  | and (d a b : BitVec 5) (ta tb : BitVec 1)
  /-- R223. Bitwise or. -/
  | or (d a b : BitVec 5) (ta tb : BitVec 1)
  /-- R223. Bitwise xor. -/
  | xor (d a b : BitVec 5) (ta tb : BitVec 1)
  /-- R223. Shifts left by B[5:0]. -/
  | shl (d a b : BitVec 5) (ta tb : BitVec 1)
  /-- R223. Shifts right logically by B[5:0]. -/
  | shr (d a b : BitVec 5) (ta tb : BitVec 1)
  /-- R223. Shifts right arithmetically by B[5:0]. -/
  | sra (d a b : BitVec 5) (ta tb : BitVec 1)
  /-- R223. Rotates left by B[5:0]. -/
  | rotl (d a b : BitVec 5) (ta tb : BitVec 1)
  /-- R223. Signed minimum. -/
  | min (d a b : BitVec 5) (ta tb : BitVec 1)
  /-- R223. Signed maximum. -/
  | max (d a b : BitVec 5) (ta tb : BitVec 1)
  /-- R223. Unsigned minimum. -/
  | minz (d a b : BitVec 5) (ta tb : BitVec 1)
  /-- R223. Unsigned maximum. -/
  | maxz (d a b : BitVec 5) (ta tb : BitVec 1)
  /-- R223. Writes 1 if A equals B. -/
  | cmpeq (d a b : BitVec 5) (ta tb : BitVec 1)
  /-- R223. Writes 1 if A is signed-less than B. -/
  | cmplt (d a b : BitVec 5) (ta tb : BitVec 1)
  /-- R223. Writes 1 if A is unsigned-less than B. -/
  | cmpltz (d a b : BitVec 5) (ta tb : BitVec 1)
  /-- R223. Writes A if d is non-zero, else B. -/
  | sel (d a b : BitVec 5) (ta tb : BitVec 1)
  /-- R223. Counts leading zero bits. -/
  | clz (d a : BitVec 5) (ta : BitVec 1)
  /-- R223. Counts trailing zero bits. -/
  | ctz (d a : BitVec 5) (ta : BitVec 1)
  /-- R223. Counts one bits. -/
  | popc (d a : BitVec 5) (ta : BitVec 1)
  /-- R235. FP64 add rounded once. -/
  | fadd (d a b : BitVec 5) (ta tb : BitVec 1)
  /-- R235. FP64 subtract. -/
  | fsub (d a b : BitVec 5) (ta tb : BitVec 1)
  /-- R235. FP64 multiply. -/
  | fmul (d a b : BitVec 5) (ta tb : BitVec 1)
  /-- R235. FP64 fused multiply-add with d as addend. -/
  | fmadd (d a b : BitVec 5) (ta tb : BitVec 1)
  /-- R235. FP64 correctly rounded divide, long-latency. -/
  | fdiv (d a b : BitVec 5) (ta tb : BitVec 1)
  /-- R236. FP64 minimum with canonical NaN. -/
  | fmin (d a b : BitVec 5) (ta tb : BitVec 1)
  /-- R236. FP64 maximum with canonical NaN. -/
  | fmax (d a b : BitVec 5) (ta tb : BitVec 1)
  /-- R236. FP64 compare writing 1, 2, 4 or 8. -/
  | fcmp (d a b : BitVec 5) (ta tb : BitVec 1)
  /-- R237. FP64 to saturated i64. -/
  | cvtfi (d a : BitVec 5) (ta : BitVec 1)
  /-- R237. i64 to FP64. -/
  | cvtif (d a : BitVec 5) (ta : BitVec 1)
  /-- R237. FP64 to a narrower floating format. -/
  | cvtffN (d a fmt : BitVec 5) (ta : BitVec 1)
  /-- R237. A narrower floating format to exact FP64. -/
  | cvtffW (d a fmt : BitVec 5) (ta : BitVec 1)
  /-- R234. Adds a byte offset to a pointer's va. -/
  | padd (d a b : BitVec 5) (ta tb : BitVec 1)
  /-- R234. Adds a scaled index to a pointer's va, checking its format. -/
  | pidx (d a b : BitVec 5) (ta tb : BitVec 1)
  /-- R234. Replaces a pointer's top byte. -/
  | ptag (d a b : BitVec 5) (ta tb : BitVec 1)
  /-- R234. Clears a pointer's top byte. -/
  | pstrip (d a : BitVec 5) (ta : BitVec 1)
  /-- R227. Loads a sign-extended constant-window word. -/
  | movk (d : BitVec 5) (index : BitVec 8)
  /-- R227. Loads a 64-bit constant-window doubleword. -/
  | movkd (d : BitVec 5) (index : BitVec 8)
  /-- R272. Reads system register k. -/
  | getk (d : BitVec 5) (k : BitVec 13)
  /-- R272. Writes system register k. -/
  | setk (a : BitVec 5) (ta : BitVec 1) (k : BitVec 13)
  /-- R273. Takes trap USER with a code, resuming after it. -/
  | trap (code : BitVec 13)
  /-- R273. Takes trap BREAK at itself. -/
  | brk (code : BitVec 13)
  /-- R244. Loads a sign-extended byte. -/
  | ldB (d base : BitVec 5) (ta : BitVec 1) (scope : BitVec 3) (order : BitVec 2) (off : BitVec 8)
  /-- R244. Loads a sign-extended halfword. -/
  | ldH (d base : BitVec 5) (ta : BitVec 1) (scope : BitVec 3) (order : BitVec 2) (off : BitVec 8)
  /-- R244. Loads a sign-extended word. -/
  | ldW (d base : BitVec 5) (ta : BitVec 1) (scope : BitVec 3) (order : BitVec 2) (off : BitVec 8)
  /-- R244. Loads a doubleword. -/
  | ldD (d base : BitVec 5) (ta : BitVec 1) (scope : BitVec 3) (order : BitVec 2) (off : BitVec 8)
  /-- R244. Loads a zero-extended byte. -/
  | ldzB (d base : BitVec 5) (ta : BitVec 1) (scope : BitVec 3) (order : BitVec 2) (off : BitVec 8)
  /-- R244. Loads a zero-extended halfword. -/
  | ldzH (d base : BitVec 5) (ta : BitVec 1) (scope : BitVec 3) (order : BitVec 2) (off : BitVec 8)
  /-- R244. Loads a zero-extended word. -/
  | ldzW (d base : BitVec 5) (ta : BitVec 1) (scope : BitVec 3) (order : BitVec 2) (off : BitVec 8)
  /-- R245. Stores a byte. -/
  | stB (d base : BitVec 5) (ta : BitVec 1) (scope : BitVec 3) (order : BitVec 2) (off : BitVec 8)
  /-- R245. Stores a halfword. -/
  | stH (d base : BitVec 5) (ta : BitVec 1) (scope : BitVec 3) (order : BitVec 2) (off : BitVec 8)
  /-- R245. Stores a word. -/
  | stW (d base : BitVec 5) (ta : BitVec 1) (scope : BitVec 3) (order : BitVec 2) (off : BitVec 8)
  /-- R245. Stores a doubleword. -/
  | stD (d base : BitVec 5) (ta : BitVec 1) (scope : BitVec 3) (order : BitVec 2) (off : BitVec 8)
  /-- R246. Typed load converting through the fat pointer's format. -/
  | ldt (d base : BitVec 5) (ta : BitVec 1) (scope : BitVec 3) (order : BitVec 2) (off : BitVec 8)
  /-- R246. Typed store converting to the fat pointer's format. -/
  | stt (d base : BitVec 5) (ta : BitVec 1) (scope : BitVec 3) (order : BitVec 2) (off : BitVec 8)
  /-- R247. Prefetches a 32-byte line into L1, never trapping. -/
  | pf (base : BitVec 5) (ta : BitVec 1) (off : BitVec 8)
  /-- R248. Orders accesses by order and scope. -/
  | fence (scope : BitVec 3) (order : BitVec 2)
  /-- R249. Atomic swap. -/
  | amoSwap (d base : BitVec 5) (ta : BitVec 1) (scope : BitVec 3) (order : BitVec 2) (off : BitVec 8)
  /-- R249. Atomic add. -/
  | amoAdd (d base : BitVec 5) (ta : BitVec 1) (scope : BitVec 3) (order : BitVec 2) (off : BitVec 8)
  /-- R249. Atomic and. -/
  | amoAnd (d base : BitVec 5) (ta : BitVec 1) (scope : BitVec 3) (order : BitVec 2) (off : BitVec 8)
  /-- R249. Atomic or. -/
  | amoOr (d base : BitVec 5) (ta : BitVec 1) (scope : BitVec 3) (order : BitVec 2) (off : BitVec 8)
  /-- R249. Atomic xor. -/
  | amoXor (d base : BitVec 5) (ta : BitVec 1) (scope : BitVec 3) (order : BitVec 2) (off : BitVec 8)
  /-- R249. Atomic signed minimum. -/
  | amoMin (d base : BitVec 5) (ta : BitVec 1) (scope : BitVec 3) (order : BitVec 2) (off : BitVec 8)
  /-- R249. Atomic signed maximum. -/
  | amoMax (d base : BitVec 5) (ta : BitVec 1) (scope : BitVec 3) (order : BitVec 2) (off : BitVec 8)
  /-- R249. Atomic unsigned minimum. -/
  | amoMinz (d base : BitVec 5) (ta : BitVec 1) (scope : BitVec 3) (order : BitVec 2) (off : BitVec 8)
  /-- R249. Atomic unsigned maximum. -/
  | amoMaxz (d base : BitVec 5) (ta : BitVec 1) (scope : BitVec 3) (order : BitVec 2) (off : BitVec 8)
  /-- R249. Atomic FP64 add. -/
  | amoFadd (d base : BitVec 5) (ta : BitVec 1) (scope : BitVec 3) (order : BitVec 2) (off : BitVec 8)
  /-- R149. Claims an index of a batch word, closing it when full. -/
  | amoAddBatch (d base : BitVec 5) (ta : BitVec 1) (scope : BitVec 3) (order : BitVec 2) (off : BitVec 8)
  /-- R250. Compare-and-swap on an even register pair. -/
  | cas (d base : BitVec 5) (ta : BitVec 1) (scope : BitVec 3) (order : BitVec 2) (off : BitVec 8)
  /-- R268. Adds an amount to a notification word as a release. -/
  | notify (d base : BitVec 5) (ta : BitVec 1) (scope : BitVec 3) (off : BitVec 8)
  /-- R268. Waits until a notification word reaches a threshold. -/
  | nwait (d base : BitVec 5) (ta : BitVec 1) (scope : BitVec 3) (off : BitVec 8)
  /-- R238. Branches if equal. -/
  | beq (a b : BitVec 5) (ta tb : BitVec 1) (disp : BitVec 12)
  /-- R238. Branches if not equal. -/
  | bne (a b : BitVec 5) (ta tb : BitVec 1) (disp : BitVec 12)
  /-- R238. Branches if signed less. -/
  | blt (a b : BitVec 5) (ta tb : BitVec 1) (disp : BitVec 12)
  /-- R238. Branches if signed greater or equal. -/
  | bge (a b : BitVec 5) (ta tb : BitVec 1) (disp : BitVec 12)
  /-- R238. Branches if negative. -/
  | bltz (a : BitVec 5) (ta : BitVec 1) (disp : BitVec 12)
  /-- R238. Branches if non-negative. -/
  | bgez (a : BitVec 5) (ta : BitVec 1) (disp : BitVec 12)
  /-- R239. Unconditional branch. -/
  | b (disp : BitVec 24)
  /-- R239. Branch and link into g7. -/
  | bl (disp : BitVec 24)
  /-- R240. Jumps to a register address. -/
  | jr (a : BitVec 5) (ta : BitVec 1)
  /-- R240. Jumps to a register address and links into d. -/
  | jlr (d a : BitVec 5) (ta : BitVec 1)
  /-- R251. Sets a register EMPTY. -/
  | purge (d : BitVec 5)
  /-- R252. Makes a posted direct write into another thread's register. -/
  | rfill (a b : BitVec 5) (ta tb : BitVec 1)
  /-- R253. Sends g0-g7 as a message to a handler on a core. -/
  | send (a : BitVec 5) (ta : BitVec 1)
  /-- R254. Moves the thread to another core, carrying g0-g7. -/
  | migrate (a : BitVec 5) (ta : BitVec 1)
  /-- R254. Writes the home core word of an address. -/
  | mhome (d a : BitVec 5) (ta : BitVec 1)
  /-- R254. Sets the thread's migration mode. -/
  | setmig (a : BitVec 5) (ta : BitVec 1)
  /-- R255. Creates a thread on the same core if a slot and identity are free. -/
  | spawn (d a : BitVec 5) (ta : BitVec 1)
  /-- R257. Pushes a task record onto the core's deque. -/
  | dqpush (d a : BitVec 5) (ta : BitVec 1)
  /-- R258. Pops the top task record into the thread's registers. -/
  | dqpop (d : BitVec 5)
  /-- R259. Posts a launch record to a launch queue. -/
  | launch (a b : BitVec 5) (ta tb : BitVec 1)
  /-- R260. Opens a tile from a shape record and an open word. -/
  | topen (d a b : BitVec 5) (ta tb : BitVec 1)
  /-- R261. Writes bytes into a tile row through the tile port. -/
  | tst (d a b : BitVec 5) (ta tb : BitVec 1)
  /-- R261. Writes bytes into a tile row with the row-final flag. -/
  | tsr (d a b : BitVec 5) (ta tb : BitVec 1)
  /-- R261. Writes into a tile and returns the refusal code without trapping. -/
  | tsq (d a b : BitVec 5) (ta tb : BitVec 1)
  /-- R262. Seals a tile as a release and returns its status word. -/
  | seal (d a : BitVec 5) (ta : BitVec 1)
  /-- R262. Returns a tile to FREE. -/
  | tret (a : BitVec 5) (ta : BitVec 1)
  /-- R134. Reads a tile's status word or valid bits. -/
  | tinfo (d a b : BitVec 5) (ta tb : BitVec 1)
  /-- R263. Posts a consumed tile's handle to a Lathe's handle queue. -/
  | qpost (a b : BitVec 5) (ta tb : BitVec 1)
  /-- R263. Posts an end-of-stream token to a Lathe's handle queue. -/
  | qeos (a : BitVec 5) (ta : BitVec 1)
  /-- R264. Pushes a four-word request into the core's Chuck FIFO. -/
  | cpush (a : BitVec 5) (ta : BitVec 1)
  /-- R265. Reports the state and status of a recent transfer. -/
  | cstat (d a : BitVec 5) (ta : BitVec 1)
  /-- R266. Removes a parameter block from the cluster's cache. -/
  | pbinv (a : BitVec 5) (ta : BitVec 1)
  /-- R141. Arrives at a named barrier and returns a token. -/
  | barArrive (d a : BitVec 5) (ta : BitVec 1)
  /-- R142. Waits until a barrier's phase differs from the token. -/
  | barWait (a b : BitVec 5) (ta tb : BitVec 1)
  /-- R144. Arrives contributing a value and waits for the reduction result. -/
  | barRed (d a b : BitVec 5) (ta tb : BitVec 1)
  /-- R152. Creates a child hypothesis id. -/
  | hnew (d a : BitVec 5) (ta : BitVec 1)
  /-- R153. Moves the thread to a descendant hypothesis. -/
  | hset (a : BitVec 5) (ta : BitVec 1)
  /-- R155. Confirms a hypothesis and waits for its toll. -/
  | hconf (a : BitVec 5) (ta : BitVec 1)
  /-- R156. Refutes a hypothesis and its descendants and waits for the toll. -/
  | href (a : BitVec 5) (ta : BitVec 1)
  /-- R182. Resolves a sequence position through the Grain-walker tree. -/
  | gwalk (d a b : BitVec 5) (ta tb : BitVec 1)
  /-- R184. Computes the knurl hash of a 16-token block. -/
  | hashb (d a : BitVec 5) (ta : BitVec 1)
  /-- R186. Finds the longest confirmed prefix match and pins its pages. -/
  | pfxl (d a : BitVec 5) (ta : BitVec 1)
  /-- R179. Pins the page holding an address. -/
  | pin (d a : BitVec 5) (ta : BitVec 1)
  /-- R179. Unpins the page holding an address. -/
  | unpin (d a : BitVec 5) (ta : BitVec 1)
  /-- R275. Records a live set and checkpoints the context unless a lapse event intervenes. -/
  | ckpt (a : BitVec 5) (ta : BitVec 1)
  /-- R274. Resumes a drained Lathe at its resume bundle and retires its record. -/
  | lresume (a : BitVec 5) (ta : BitVec 1)
  /-- R248. Performs a view join over a scratchpad range as an acquire. -/
  | vjoin (a b : BitVec 5) (ta tb : BitVec 1)
  /-- R282. 32-bit scalar add. -/
  | sadd (qd qa : BitVec 4) (i : BitVec 1) (imm : BitVec 17)
  /-- R282. 32-bit scalar subtract. -/
  | ssub (qd qa : BitVec 4) (i : BitVec 1) (imm : BitVec 17)
  /-- R282. 32-bit scalar multiply. -/
  | smul (qd qa : BitVec 4) (i : BitVec 1) (imm : BitVec 17)
  /-- R282. Scalar and. -/
  | sand (qd qa : BitVec 4) (i : BitVec 1) (imm : BitVec 17)
  /-- R282. Scalar or. -/
  | sor (qd qa : BitVec 4) (i : BitVec 1) (imm : BitVec 17)
  /-- R282. Scalar xor. -/
  | sxor (qd qa : BitVec 4) (i : BitVec 1) (imm : BitVec 17)
  /-- R282. Scalar shift left. -/
  | sshl (qd qa : BitVec 4) (i : BitVec 1) (imm : BitVec 17)
  /-- R282. Scalar logical shift right. -/
  | sshr (qd qa : BitVec 4) (i : BitVec 1) (imm : BitVec 17)
  /-- R283. Scalar compare writing 0 or 1. -/
  | scmp (qd qa qb : BitVec 4) (cc : BitVec 3)
  /-- R283. Writes a sign-extended 22-bit immediate. -/
  | smovi (qd : BitVec 4) (imm : BitVec 22)
  /-- R283. Reads a word of the Lathe's constant window. -/
  | smovk (qd : BitVec 4) (index : BitVec 8)
  /-- R284. Lathe branch, conditional on a scalar register. -/
  | sb (cond : BitVec 2) (qa : BitVec 4) (disp : BitVec 16)
  /-- R280. Pushes a zero-overhead loop level or skips the body on count 0. -/
  | loop (i : BitVec 1) (qa : BitVec 4) (imm : BitVec 16)
  /-- R285. Dequeues a handle-queue entry as an acquire, stalling while empty. -/
  | qwait (hd : BitVec 3) (qd : BitVec 4)
  /-- R286. Lathe posts a consumed tile's handle to a Lathe's queue. -/
  | qpostLathe (l : BitVec 2) (h : BitVec 3)
  /-- R286. Lathe posts an end-of-stream token. -/
  | qeosLathe (l : BitVec 2)
  /-- R287. Lathe returns a tile. -/
  | tretLathe (h : BitVec 3)
  /-- R288. Lathe reads the low 32 bits of a system register. -/
  | getkLathe (qd : BitVec 4) (k : BitVec 6)
  /-- R288. Lathe writes a system register. -/
  | setkLathe (qa : BitVec 4) (k : BitVec 6)
  /-- R289. Traps USER at the Lathe after the bundle's other slots act. -/
  | trapsw (code : BitVec 12)
  /-- R291. Lane add. -/
  | vadd (vd va vb : BitVec 5) (ty : BitVec 3)
  /-- R291. Lane subtract. -/
  | vsub (vd va vb : BitVec 5) (ty : BitVec 3)
  /-- R291. Lane multiply. -/
  | vmul (vd va vb : BitVec 5) (ty : BitVec 3)
  /-- R291. Lane fused multiply-add into vd. -/
  | vfma (vd va vb : BitVec 5) (ty : BitVec 3)
  /-- R291. Lane maximum. -/
  | vmax (vd va vb : BitVec 5) (ty : BitVec 3)
  /-- R291. Lane minimum. -/
  | vmin (vd va vb : BitVec 5) (ty : BitVec 3)
  /-- R292. Lane and. -/
  | vand (vd va vb : BitVec 5) (ty : BitVec 3)
  /-- R292. Lane or. -/
  | vor (vd va vb : BitVec 5) (ty : BitVec 3)
  /-- R292. Lane xor. -/
  | vxor (vd va vb : BitVec 5) (ty : BitVec 3)
  /-- R292. Lane shift left. -/
  | vshl (vd va vb : BitVec 5) (ty : BitVec 3)
  /-- R292. Lane shift right. -/
  | vshr (vd va vb : BitVec 5) (ty : BitVec 3)
  /-- R293. Converts lanes between types, using register pairs across widths. -/
  | vcvt (vd va : BitVec 5) (ty st : BitVec 3)
  /-- R294. Broadcasts a scalar to every lane. -/
  | vbcast (vd : BitVec 5) (qa : BitVec 4) (ty : BitVec 3)
  /-- R295. Reduces all lanes to a scalar by sum, max or min. -/
  | vred (qd : BitVec 4) (va : BitVec 5) (ty : BitVec 3) (op : BitVec 2)
  /-- R294. Selects lanes by the mask in vd. -/
  | vsel (vd va vb : BitVec 5) (ty : BitVec 3)
  /-- R294. Lane compare writing all ones or zero. -/
  | vcmp (vd va vb : BitVec 5) (ty cc : BitVec 3)
  /-- R296. Multiplies 16-bit pairs and accumulates into 32-bit lanes. -/
  | vmac16 (vd va vb : BitVec 5) (ty : BitVec 3)
  /-- R297. Copies an accumulator row or m, l or NaN bits into a vector. -/
  | vrow (vd : BitVec 5) (acc ty : BitVec 3) (part : BitVec 2) (row : BitVec 6)
  /-- R297. Copies a vector into an accumulator row or m, l or NaN bits. -/
  | vwacc (acc : BitVec 3) (va : BitVec 5) (ty : BitVec 3) (part : BitVec 2) (row : BitVec 6)
  /-- R298. Lane table-defined exp2. -/
  | fexp2 (vd va : BitVec 5)
  /-- R298. Lane correctly rounded log2. -/
  | flog2 (vd va : BitVec 5)
  /-- R298. Lane correctly rounded reciprocal. -/
  | frcp (vd va : BitVec 5)
  /-- R298. Lane correctly rounded reciprocal square root. -/
  | frsqrt (vd va : BitVec 5)
  /-- R298. Lane sine in half-turns. -/
  | fsin (vd va : BitVec 5)
  /-- R298. Lane cosine in half-turns. -/
  | fcos (vd va : BitVec 5)
  /-- R309. Applies the softmax step to an accumulator's scores and writes the P tile. -/
  | smx (ao asc : BitVec 3) (qs : BitVec 4) (hout : BitVec 3)
  /-- R311. Merges one softmax state into another. -/
  | smxm (ad ae : BitVec 3)
  /-- R311. Finalises a softmax accumulator. -/
  | smxf (acc : BitVec 3)
  /-- R311. Sets an accumulator to the empty state. -/
  | smxz (acc : BitVec 3)
  /-- R301. Matrix multiply-accumulate of two sealed tiles. -/
  | mma (ad hA hB : BitVec 3) (na nb dis : BitVec 1) (qo : BitVec 4)
  /-- R301. Matrix multiply-accumulate with B transposed and a valid-row column mask. -/
  | mmat (ad hA hB : BitVec 3) (na nb dis : BitVec 1) (qo : BitVec 4)
  /-- R308. Exchanges vector slices among the four Lathes of a gang. -/
  | xchg (vd va : BitVec 5)
  /-- R305. Applies an exponent to the matrix operation of 12 cycles earlier, or sets ORPHAN_SCALE. -/
  | escl (e : BitVec 8)
  /-- R312. Reads 256 bytes of a sealed tile row's element image at fixed latency. -/
  | tld (vd : BitVec 5) (h : BitVec 3) (row : BitVec 7) (chunk : BitVec 5)
  /-- R313. Lathe writes a chunk of a tile row through the swizzled view. -/
  | tstLathe (va : BitVec 5) (h : BitVec 3) (row : BitVec 7) (chunk : BitVec 5) (fin : BitVec 1)
  /-- R314. Reads 32 valid bits of a tile. -/
  | tmask (qd : BitVec 4) (h : BitVec 3) (sel : BitVec 2)
  /-- R315. Writes 256 bytes of a vector to global memory. -/
  | tout (va : BitVec 5) (qa qb : BitVec 4)
  /-- R315. Pushes a Chuck request formed from a vector into the Lathe's FIFO. -/
  | toutC (va : BitVec 5) (qa qb : BitVec 4)
  /-- R316. Lathe seals a tile as a release. -/
  | tseal (h : BitVec 3)
  /-- R204. A spindle word whose major opcode or minor is not assigned traps ILLEGAL precisely and has no effect. -/
  | unassignedOpcode (w : BitVec 32)
  /-- R210. A Lathe bundle with a reserved head-word bit or an unassigned slot opcode traps ILLEGAL at decode before any slot issues. -/
  | illegalBundle (slot : BitVec 4)
  /-- R72. When the descriptor read completes, its checks move the context to RUNNING with status OK or back to FREE with DESC_FAULT. -/
  | loadingChecks
  /-- R76. When the save has been written the context becomes SAVED and its slots, tiles, Lathes and TLB entries are released, or FAULTED on a write fault. -/
  | saveWritten
  /-- R77. When the save area has been read the context returns to RUNNING, or the claims are undone with SAVE_FAULT or RES_BUSY. -/
  | restoreComplete
  /-- R78. When teardown has finished the context index becomes FREE with status OK. -/
  | teardownComplete
  /-- R173. When no TLB holds the old translation and every access through it has been performed, busy clears. -/
  | tlbinvDone
  /-- R363. When the signed report has been written, ATTREQ res becomes done. -/
  | attestationDone
  /-- R362. Module reset enters ROM, reads fuses, applies fenced clusters and retired frames and starts firmware verification. -/
  | moduleReset
  /-- R362. When the key digest, signature and rollback checks complete, the module goes to READY and derives its identity key, or goes to BOOTFAIL. -/
  | firmwareVerify
  /-- R367. When the module becomes idle it enters the deepest idle state whose exit latency is within LTOL. -/
  | idleEntry
  /-- R367. An event that ends idleness starts an exit, or abandons an entry, within the state's exit latency. -/
  | idleExit
  /-- R82. When a record reaches the head of its launch queue, dispatch reads the record and kernel header once and checks them. -/
  | launchHeadRead
  /-- R83. Dispatch reads a waiting launch's unmet dependence word again as an acquire and compares it with its threshold. -/
  | dependencePoll
  /-- R84. An eligible launch chosen by priority binds its Lathes, broadcasts its constant image and places its work items. -/
  | dispatch
  /-- R111. At each 4,096-cycle boundary every Tempo balance becomes min(balance + B, B). -/
  | tempoPeriod
  /-- R130. When a tile's chime countdown reaches zero the tile is sealed with chime flag 1 and posted or held. -/
  | chime
  /-- R96. An arriving message claims a free slot, or goes to the inbox or overflow ring, or waits in the mesh. -/
  | messageArrive
  /-- R97. When ring entries free, a core accepts messages waiting in the mesh in arrival order, releasing their senders. -/
  | ringAccept
  /-- R96. When a slot frees, the oldest waiting message is admitted and the oldest ring entry moves into the inbox. -/
  | messageAdmit
  /-- R105. A core with a free slot, no waiting message and a non-empty deque pops its top record into the slot. -/
  | dequePop
  /-- R107. An idle core probes the next victim over the Drumline and takes or splits its bottom record, or is refused. -/
  | stealProbe
  /-- R116. A long-latency result lands in a PENDING register, setting it FULL and waking a slot parked on it. -/
  | registerFill
  /-- R117. A direct write reaching a core lands in an EMPTY register of the named thread and wakes it, or is refused. -/
  | directWrite
  /-- R119. A PARKED_WAIT slot whose wait condition is met becomes ACTIVE and its instruction completes. -/
  | slotWake
  /-- R121. When the inbox head has waited 4,096 cycles with every slot occupied, the spill engine spills the longest-parked slot and gives its slot to the head message. -/
  | spill
  /-- R121. An engine-spilled image whose awaited register is FULL or whose barrier or word is released is re-admitted as a restore message. -/
  | spillReadmit
  /-- R122. When an orphaned slot's drop completes it restarts at the orphan vector under the heir, or frees and releases its tid. -/
  | orphanRestart
  /-- R46. An L1 line is invalidated no later than 4,096 cycles after its fill. -/
  | l1LineExpiry
  /-- R48. A store-gathering entry drains as one burst no later than 64 cycles after its last merge. -/
  | storeBufferDrain
  /-- R148. A performed write to a waited word re-evaluates its waiter entries and wakes waiters whose threshold is met. -/
  | nwaitWake
  /-- R148. A polling nwait reads its word every 256 cycles, completing, waiting again, or taking DATA_FAULT on a failed remote poll. -/
  | nwaitPoll
  /-- R150. The hypothesis unit takes up the next hnew, hconf or href of a context against the current tree, starting a toll or replying. -/
  | hypothesisTakeUp
  /-- R163. When every core, slice and Chuck has acknowledged, the toll completes, merged ids become RETIRED and refuted ids DEAD. -/
  | tollComplete
  /-- R169. A page walk finishes, setting a and d and filling the TLBs, or reporting a translation fault to every merged requester. -/
  | walkComplete
  /-- R176. When the backing copy has been read into the frame, the managed page becomes RESIDENT and waiting accesses and pins proceed. -/
  | pageFillDone
  /-- R176. With every acknowledgement in, no reference in flight and pin count 0, the page unit writes v := 0 and the page goes WRITING or ABSENT. -/
  | evictionCommit
  /-- R176. When the frame has been written to the backing copy the page becomes ABSENT and the frame passes to the waiting fill or the ring. -/
  | writebackDone
  /-- R320. The Chuck takes a request from a FIFO in round-robin, reads its parameter block, checks it and starts or refuses the transfer. -/
  | chuckAccept
  /-- R325. A clapper finishes its softmax partial state over its tokens and writes its row of the sweep's result tile. -/
  | clapperRow
  /-- R326. When a transfer's last access is performed it sends its completion message, makes its direct write, or records its status for cstat. -/
  | transferComplete
  /-- R188. A port still TRAINING after 2^24 cycles becomes FENCED. -/
  | trainingTimeout
  /-- R195. A remote operation is accepted for egress, its plane chosen, and it is sent or ended UNREACH at once. -/
  | linkEgress
  /-- R193. A received WRITE packet is checked against the window table and performed, then answered with a RESP status. -/
  | linkWrite
  /-- R193. A received READ packet is checked against the window table and answered with data and status. -/
  | linkRead
  /-- R193. A received AMO packet is checked and performed as one read-modify-write, and the old value returned. -/
  | linkAmo
  /-- R193. A received NOTIFY packet adds its amount to a notification word and is answered. -/
  | linkNotify
  /-- R193. A received TILEWR packet is checked against a tile window and context state and presented to the tile port. -/
  | tilewr
  /-- R194. A RESP ends its request with its status, filling a destination, counting a refusal or feeding a completion. -/
  | resp
  /-- R195. A request with no RESP within 2^22 cycles ends UNREACH. -/
  | linkRequestTimeout
  /-- R333. When a trapped Lathe's drain ends, its trap record is written to the ring and a message with handler CVEC is sent to the trap core. -/
  | latheTrap
  /-- R138. When all four Lathes have reached a gang bundle and none is stalled, they issue it together with a release and acquire. -/
  | gangIssue
  /-- R304. A waiting tret returns its tile and releases its granules when the last matrix or tld read of the tile ends. -/
  | tretAfterRead
  /-- R256. Ends the thread and frees its slot and identity. -/
  | exit
  /-- R256. Makes the slot not ready until other slots issue or 16 cycles pass. -/
  | yield
  /-- R273. Has no effect. -/
  | nop
  /-- R273. Ends a trap handler, resuming at TPC or freeing the slot and retiring the record. -/
  | eret
  /-- R208. S-slot no-operation. -/
  | snop
  /-- R208. V-slot no-operation. -/
  | vnop
  /-- R208. F-slot no-operation. -/
  | fnop
  /-- R208. M-slot no-operation. -/
  | mnop
  /-- R208. E-slot no-operation. -/
  | enop
  /-- R208. T-slot no-operation. -/
  | tnop
  /-- R335. A spindle instruction fetch or a Lathe bundle fetch fails translation or permission, and FETCH_FAULT is raised before the instruction or bundle issues. -/
  | fetchFault
  deriving DecidableEq, Repr

end Sys2Proof
end

