-- ==== Sys2Proof/Machine/State.lean ====
section
/-! DEFINITION. The state of one J4M module as plain data, and the state after module reset.
Units are numbered as the spec numbers them: die d 0 to 3; cluster 64d + c; core 1024d + 16c + n, which is its core word
(die [11:10], cluster [9:4], core [3:0]); Lathe 4(64d + c) + l; slice 512d + 8c + s; barrel slot 16·core + slot;
tile 1024·cluster + index. A map lists the units that differ from the default of their type. -/

namespace Sys2Proof.Machine

/-! ### Turns: which agent moves next (assumption 1) -/

/-- The unit at which an event happens, and its operands; the model's own record.
DESIGN CHOICE, unsafe: assumption 1. -/
structure Place where
  die : Nat := 0
  cluster : Nat := 0
  core : Nat := 0
  slot : Nat := 0
  lathe : Nat := 0
  ctx : Nat := 0
  q : Nat := 0
  reg : Nat := 0
  idx : Nat := 0
  port : Nat := 0
  vpn : Nat := 0
  tid : Nat := 0
  tag : Nat := 0
  n : Nat := 0
  deriving DecidableEq, Repr

/-- The coming turn of an agent: an input of the model (assumption 1).
DESIGN CHOICE, unsafe: assumption 1. -/
inductive Turn where
  | spindle (core : Nat)                 -- a core issues
  | lathe (l : Nat)                      -- a Lathe issues its next bundle
  | event (at_ : Place) (i : Instr)      -- an event of the device or its host
  | tick                                 -- the module cycle ends
  | hostStore (addr : Nat) (b : Byte)    -- the host writes its own memory
  | hostError (sector : Nat)             -- a sector of host memory becomes unreadable
  deriving DecidableEq, Repr

/-- The model's own control fields.
DESIGN CHOICE, unsafe: assumption 1. -/
structure Ctl where
  turns : List Turn := []   -- the coming turns; none: a free turn (assumption 1)
  free : Nat := 0           -- the count of free values taken (assumption 2)
  at_ : Place := {}         -- the unit that acts in this step
  period : Nat := 0         -- Tempo periods whose start has been taken (R111)
  deriving DecidableEq, Repr

/-! ### Spindle slots (R113, Table 8-1) -/

/-- R115. -/
inductive RegState where
  | full | empty | pending
  deriving DecidableEq, Repr

/-- A general register: its state, its value, its dependency time (R47). -/
structure Reg where
  st : RegState := .empty
  v : Word64 := 0
  dep : Nat := 0
  deriving DecidableEq, Repr

/-- R119, Table 8-3. -/
inductive SlotSt where
  | free | active | parkedReg | parkedWait | migrating | spilled | orphaned
  deriving DecidableEq, Repr

/-- How the bytes of a reply become a register value (Tables 16-1, 16-2). -/
inductive Conv where
  | raw                    -- the 64 bits
  | sext (n : Nat)         -- n bytes, sign-extended
  | zext (n : Nat)         -- n bytes, zero-extended
  | fp (code : Nat)        -- a floating element, widened to FP64
  deriving DecidableEq, Repr

/-- What a fill waits for before it can land. -/
inductive FillSrc where
  | ready                  -- its value is known; only its latency remains
  | link (tag : Nat)       -- the RESP of a link request (R194)
  | hypUnit (stamp : Nat)  -- the reply of the hypothesis unit (R152)
  | page (vpn : Nat)       -- the page unit (R176, R271)
  deriving DecidableEq, Repr

/-- A trap that is due and not yet taken (R331). -/
structure LateTrap where
  cause : Nat
  code : Nat := 0
  status : Nat
  reason : Nat
  faddr : Word64
  pc : Nat                 -- the instruction that raised it
  tpc : Nat                -- where its handler resumes
  deriving DecidableEq, Repr

/-- A fill outstanding for a register (R116). -/
structure Fill where
  reg : Nat
  v : Word64 := 0
  dep : Nat := 0
  src : FillSrc := .ready
  conv : Conv := .raw
  acq : Bool := false                 -- an acquire whose value is still on its way: later accesses wait (R55)
  rel : Bool := false                 -- a release that is still on its way to another module: later acquires wait (R55)
  fault : Option LateTrap := none     -- the trap that falls due when it lands (R194, R199)
  due : Option Nat := none            -- the cycle by which it lands, where the spec bounds it (R221)
  deriving DecidableEq, Repr

/-- A trap record on its way to the ring (R332, Table 20-4). -/
structure TrapRec where
  cause : Word64      -- TCAUSE
  pc : Nat            -- w1: bundle head or instruction address
  faddr : Word64
  resume : Nat := 0
  tid : Nat := 0
  ctx : Nat
  lathe : Bool := false
  src : Nat := 0
  aux : Word64 := 0
  cycle : Nat
  deriving DecidableEq, Repr

/-- Why a write, or a lookup, waits at a home slice. -/
inductive Stuck where
  | full (ctx slice : Nat)           -- the log segment of a context is full (R161)
  | budget (ctx cluster : Nat)       -- the eviction balance of a context in a cluster is not above zero (R112, R160)
  deriving DecidableEq, Repr

/-- What a parked slot waits for. -/
inductive Wait where
  | none
  | walk (ctx vpn : Nat)             -- a page walk; the instruction issues again (R254)
  | drain (why : Stuck)              -- a write that waits at its home slice (R112, R161)
  | again                            -- a post to a full handle queue, or a lock-out: issues again when it can
  | launch (q : Nat)                 -- a post to a full launch queue (R92)
  | push                             -- a push into a full Chuck FIFO (R98)
  | bar (word token : Word64)        -- `bar.wait`
  | barRed (word : Word64) (phase d arrival : Nat) (dep : Nat) -- its place among the phase's contributions; its sources' dependency time
  | nwait (va : Nat) (threshold : Word64) (scope : Nat)
  | resolve (id : Nat) (confirm : Bool)  -- `hconf`, `href` before and during the toll
  | ckpt (live : List Word64) (lapses before : Nat) -- requests accepted before it; lapse count at issue (R275)
  | tret (tile gen : Nat)            -- reads of the tile in progress (R304)
  | port (cycle : Nat)               -- a seal that came after a write of its cycle: it reaches the tile port in a later one (R132)
  | send (stamp : Nat)               -- the message has not been accepted (R97)
  | record (r : TrapRec) (t : LateTrap) -- the trap-record ring is full (R330): the record that waits, and the trap it is of
  | acks (all : Bool)                -- acknowledgements of the context's earlier writes, or of the slot's alone (R66, R194)
  | stored (rel : BitVec 3)          -- its release store is in the buffer, and must be performed before it goes on (R48, R161)
  | migrating (dst : Nat)            -- fills land before the thread leaves (R120)
  | fetch (stamp : Nat)              -- a word of another module that the instruction reads; it then issues again
  deriving DecidableEq, Repr

/-- A word of another module that a parked instruction has read (R194): its address there, its status, its bytes. -/
structure Fetched where
  rmod : Nat
  pa : Nat
  status : Nat := 0
  bytes : List Byte := []
  deriving DecidableEq, Repr

/-- A `pfxl` that waits for a page: the entries it has matched, its dependency time, and the pages it has pinned (R186). -/
structure PfxRun where
  entries : List (Nat × Nat)
  dep : Nat
  pinned : List Nat := []
  deriving DecidableEq, Repr

/-- A barrel slot. -/
structure Slot where
  st : SlotSt := .free
  pc : BitVec 56 := 0
  regs : Map Reg := []
  hyp : Nat := 0
  tid : Nat := 0
  ctx : Nat := 0
  tcls : Bool := false
  mig : Bool := false                 -- the mode of `setmig` (R254)
  launch : Option Nat := none         -- the launch the thread belongs to (R228)
  first : Bool := false               -- its first instruction has not issued (R88, R100)
  byMsg : Bool := false               -- a message, a task record or dispatch began it: its first instruction is an acquire (R59, R62, R63, R83, R257)
  finishing : Bool := false           -- its wait was met, and its instruction completes before a late trap is taken (R331)
  hnd : Bool := false
  tcause : Word64 := 0
  tpc : Word64 := 0
  taddr : Word64 := 0
  trec : Word64 := 0
  fltsel : Nat := 0
  rfref : Nat := 0
  ckok : Bool := false
  barst : Bool := false
  awaiting : List Nat := []           -- registers a PARKED_REG slot awaits
  wait : Wait := .none
  fills : List Fill := []
  leaving : Bool := false             -- `exit` has issued; fills are still outstanding (R123)
  refused : Option Nat := none        -- first failing status of its posted remote writes not yet reported (R194)
  late : List LateTrap := []          -- traps that are due, in the order in which they fell due (R331)
  relOut : Bool := false              -- a release of it has been posted to another module: later acquires wait (R55)
  fetched : List Fetched := []        -- words read for the parked instruction
  looked : List Nat := []             -- sectors whose log reads the parked instruction has been debited for (R160)
  pbinvs : List Nat := []             -- blocks that its `pbinv` has removed and no `cpush` of it has named since (R266)
  pfx : Option PfxRun := none         -- its `pfxl` waits for a page (R186)
  recRetired : Bool := false          -- the record that TREC names has been retired (R332)
  yieldUntil : Nat := 0               -- `yield`: not ready before this cycle, or until
  yieldFor : List Nat := []           -- these slots have issued, parked or left (R256)
  parkedAt : Nat := 0
  deriving DecidableEq, Repr

/-! ### Messages (R96, Table 6-4) and task records (R104) -/

/-- Table 6-4 `kind`. -/
inductive MsgKind where
  | send | migrate | completion | restore
  deriving DecidableEq, Repr

/-- The agent that sends a message or makes a direct write (R8). -/
inductive Sender where
  | thread (ctx tid : Nat)
  | chuck (cluster : Nat)
  | engine (core : Nat)               -- the spill engine of a core (R121)
  | device (ctx : Nat)                -- the delivery of a context's trap records (R333)
  deriving DecidableEq, Repr

/-- A message to a core. `trap` marks the message that starts a handler at the trap core (R333). -/
structure Msg where
  kind : MsgKind := .send
  pc : Nat := 0                       -- handler address; for a restore, the address of the slot record
  ctx : Nat := 0
  hyp : Nat := 0
  tid : Nat := 0
  tcls : Bool := false
  mig : Bool := false
  g : List Reg := []                  -- g0 to g7, with their states
  launch : Option Nat := none
  trap : Option (Word64 × Word64 × Word64) := none   -- TCAUSE, TADDR, TREC
  src : Sender := .device 0           -- messages of one sender to one core stay in order (R8)
  late : List LateTrap := []          -- traps that fell due in a migrating slot, which its thread takes before it issues (R331)
  stamp : Nat := 0                    -- names the message to its waiting sender (R97)
  room : Bool := false                -- its core's ring keeps an entry for it: its sender has not waited (R97)
  deriving DecidableEq, Repr

/-- A task record (Table 7-2): a task, or a range of work items. -/
inductive Task where
  | task (hyp pc : Nat) (pay : List Word64)
  | range (first count : Nat)
  deriving DecidableEq, Repr

/-- A record in a deque, with the launch it belongs to (R103). -/
structure TaskRec where
  launch : Nat
  task : Task
  tcls : Bool := false
  deriving DecidableEq, Repr

/-! ### Spindle cores -/

/-- An entry of the field-layout table (R231, R233). -/
structure FltEntry where
  v : Word64 := 0
  tag : Option Nat := none
  deriving DecidableEq, Repr

/-- An entry of the store-gathering buffer (R48): a naturally aligned 256-byte block. -/
structure GatherEntry where
  tgt : Nat := 0                -- 0 module HBM, 1 host memory, 2 remote module
  rmod : Nat := 0
  block : Nat                   -- address of the block at the target
  ctx : Nat
  hyp : Nat
  va : Nat := 0                 -- the global address of the block
  bytes : Map (Byte × Nat)            -- offset in the block to the byte and its writer: the slot, plus 2^16 once its thread has left it
  mergedAt : Nat
  deriving DecidableEq, Repr

/-- A line of the L1 data cache (R46, R47, R159). -/
structure L1Line where
  addr : Nat
  ctx : Nat
  hyp : Nat
  filled : Nat
  bytes : List Byte
  deriving DecidableEq, Repr

/-- Who pushed a request: the FIFO (core, or Lathe), the thread and its hypothesis (R264). -/
structure Request where
  w : List Word64
  ctx : Nat := 0
  hyp : Nat := 0
  tid : Nat := 0
  lathe : Option Nat := none
  core : Nat := 0
  launch : Option Nat := none
  tcls : Bool := false
  id : Nat := 0                       -- names the request in the records of `cstat` (R265)
  fresh : Bool := false               -- its slot has issued `pbinv` for its block: no copy that was read before the push serves it (R266)
  deriving DecidableEq, Repr

/-- One of the last 64 requests pushed, as `cstat` reports it (R265). -/
structure Pushed where
  id : Nat
  xid : Nat
  ctx : Nat
  complete : Bool := false
  refusedWrite : Bool := false        -- the completion was a direct write that its target refused
  status : Nat := 0
  discarded : Bool := false           -- its context was torn down: it has not been performed (R78)
  deriving DecidableEq, Repr

/-- A Chuck FIFO with its stall counter and its last requests (R91, R98, R265, R272). -/
structure Fifo where
  entries : List Request := []
  stall : Nat := 0
  waiting : List (Nat × Request) := [] -- slots whose `cpush` waits for an entry, in order, each with its request (R98)
  pushed : List Pushed := []          -- latest first, at most 64
  deriving DecidableEq, Repr

/-- Who made a direct write: a slot's `rfill`, or a transfer of a cluster's Chuck (R117). -/
inductive DwSrc where
  | slot (k tid : Nat)
  | chuck (cluster id accepted : Nat)   -- the request, and the transfer's name since its acceptance (R275)
  deriving DecidableEq, Repr

/-- A direct write on its way to a core (R117, R252). -/
structure DirectWrite where
  tid : Nat
  ctx : Nat
  reg : Nat
  v : Word64
  from_ : DwSrc
  deriving DecidableEq, Repr

/-- A spindle core. -/
structure Core where
  flt : Map FltEntry := []
  winOwner : Option Nat := none       -- the launch that owns the constant window (R87)
  deque : List TaskRec := []          -- top first
  inbox : List Msg := []              -- oldest first
  ring : List Msg := []               -- overflow-ring contents of all contexts, oldest first
  ringNext : Map Nat := []            -- each context's next entry of its ring at this core (R96)
  meshWait : List Msg := []           -- messages that have reached the core and wait for ring room (R97)
  gather : List GatherEntry := []
  l1 : List L1Line := []
  fifo : Fifo := {}
  rr : Nat := 15                      -- the slot that issued last (R108; assumption 6)
  lastIssue : Option Nat := none      -- the cycle of the core's last issue
  slotIssue : Map Nat := []           -- by slot: the cycle of its last issue (R108)
  poppedAt : Option Nat := none       -- the cycle in which its only record, a range, gave its first ordinal to a pop (R107)
  probe : Nat := 0                    -- victims probed in this pass (R106)
  idleDone : Bool := false            -- a full pass found nothing (R106)
  headSince : Option Nat := none      -- when the head of the inbox began to wait (R121)
  directWrites : List DirectWrite := []   -- direct writes on their way to the core (R117)
  deriving DecidableEq, Repr

/-! ### Tiles (chapter 9) -/

/-- Table 9-3. -/
inductive TileSt where
  | free | open_ | held | queued | consumed
  deriving DecidableEq, Repr

/-- The values of a shape record (Table 9-1). -/
structure Shape where
  fmt : Nat := 0
  blog : Nat := 0
  estr : Nat := 0
  swz : Nat := 0
  rows : Nat := 0
  cols : Nat := 0
  base : Nat := 0
  rstride : Nat := 0
  deriving DecidableEq, Repr

/-- An entry of a tile table. The footprint granules it owns are those of its shape (R125, R126).
DESIGN CHOICE, unsafe: assumption 5. -/
structure Tile where
  st : TileSt := .free
  gen : Nat := 0
  ctx : Nat := 0
  shape : Shape := {}
  lathe : Nat := 0              -- bound Lathe, 0 to 3
  target : Nat := 0             -- fill target n
  chimeAt : Option Nat := none  -- the cycle at which the countdown reaches zero (R130)
  chimeLeft : Option Nat := none  -- cycles left while the context is saved (R76)
  valid : BitVec 128 := 0
  vcnt : Nat := 0
  chime : Bool := false         -- sealed by its chime
  returnLate : Bool := false    -- a `tret` waits for reads in progress (R304)
  postAfter : Nat := 0          -- no post of its seal is written before this cycle (R310)
  wroteAt : Option Nat := none  -- the cycle of the last write that the port accepted (R132)
  deriving DecidableEq, Repr

/-- An entry of a Lathe's handle queue (Table 6-3). -/
structure HqEntry where
  eos : Bool := false
  chime : Bool := false
  full : Bool := false
  vcnt : Nat := 0
  handle : Word32 := 0
  deriving DecidableEq, Repr

/-- A post that waits to enter a full handle queue, in order (R94, R95). -/
inductive PendingPost where
  | seal (tile : Nat) (entry : HqEntry)  -- held in the tile table, with the entry that it will write
  | slot (k : Nat)                       -- a parked slot's `qpost` or `qeos`
  | lathe (l : Nat)                      -- a stalled Lathe's
  deriving DecidableEq, Repr

/-! ### Lathes (chapters 17, 18) -/

/-- The form of an accumulator (R300). -/
inductive AccForm where
  | fp32 | int32 | fp64
  deriving DecidableEq, Repr

/-- An accumulator: 64 rows of 2,048 bits, or 32 rows of 32 FP64 elements; m, l, sticky NaN bits and column mask. -/
structure Acc where
  form : AccForm := .fp32
  rows : Map (BitVec 2048) := []
  m : Map Word32 := []          -- an unlisted m is −∞, the empty state (R38)
  l : Map Word32 := []
  nan : BitVec 64 := 0
  cv : BitVec 64 := 0
  deriving DecidableEq, Repr

/-- A matrix operation in flight (R299 to R305): its operands as read at issue. -/
structure MatOp where
  acc : Nat
  start : Nat                   -- cycle of issue
  landsAt : Nat
  e : Int := 0                  -- the exponent that an `escl` has delivered
  escaled : Bool := false
  dis : Bool := false
  form : AccForm := .fp32
  fmtA : Nat := 0
  fmtB : Nat := 0
  a : List (List Nat) := []     -- rows of A, element codes, in k order
  b : List (List Nat) := []     -- columns of B, element codes, in k order
  na : Bool := false
  nb : Bool := false
  cv : BitVec 64 := 0
  deriving DecidableEq, Repr

/-- Why a Lathe is stopped, with what `lresume` needs (R332 to R334). -/
structure LTrap where
  rec_ : TrapRec
  written : Bool := false       -- the record has been written
  deriving DecidableEq, Repr

/-- A register of a Lathe, for the hazard monitor (R278). -/
inductive LReg where
  | q (n : Nat) | h (n : Nat) | v (n : Nat) | a (n : Nat)
  deriving DecidableEq, Repr

/-- A bundle that has been decoded (R207): its address and length, the head word's fields, its operations by slot number. -/
structure Bundle where
  addr : Nat
  size : Nat
  dly : Nat := 0
  lend : Bool := false
  gang : Bool := false
  ops : List (Nat × Instr) := []
  deriving DecidableEq, Repr

/-- A Lathe.
DESIGN CHOICE, unsafe: assumption 4. DESIGN CHOICE, unsafe: assumption 5. -/
structure Lathe where
  bound : Option Nat := none    -- the launch
  ctx : Nat := 0
  pc : BitVec 56 := 0
  q : Map Word32 := []
  h : Map Word32 := []
  v : Map (BitVec 2048) := []
  a : Map Acc := []
  loops : List (BitVec 56 × Word32) := []   -- innermost first, at most four
  pending : List (LReg × Nat) := []  -- a register's pending write and the cycle it lands
  mats : List MatOp := []       -- matrix operations in flight, oldest first
  lastMat : Option Nat := none  -- the cycle of the last matrix operation (R302)
  nextIssue : Nat := 0          -- the first cycle the next bundle may issue (R276)
  relPending : Bool := false    -- R285 released_pending
  hq : List HqEntry := []       -- oldest first
  hqWait : List PendingPost := []
  hqStall : Nat := 0
  fifo : Fifo := {}
  trap : Option LTrap := none
  reads : List (Nat × Nat) := []  -- tiles being read and the cycle each read ends (R304)
  gone : List Nat := []         -- Lathes of its launch released since its last bundle issued, while the next one stalled (R286)
  stalledPost : Bool := false   -- its bundle waits with a post that has been counted (R95, R98)
  atGang : Bool := false        -- it has reached a gang bundle (R138)
  eDone : Bool := false         -- the E slot of the bundle it refetches has delivered its exponent (R306)
  walk : Option (Nat × Nat) := none  -- it waits for a page walk: context and page
  walkScale : Option Int := none     -- the exponent of the bundle that waits for it (R306)
  late : List (TrapRec × Nat) := []  -- traps due before a bundle issues (R317), each with the cycle by which its error has been found
  skip : Nat := 0               -- nesting depth of the scan over a skipped loop body (R281)
  held : Option Bundle := none  -- the gang bundle that it has reached
  turnAt : Option Nat := none   -- the cycle of its last turn
  fetched : List Fetched := []  -- words of another module that it has fetched
  deriving DecidableEq, Repr

/-! ### Barriers (chapter 10) -/

/-- The result of a `bar.red` whose slot was spilled or saved when its phase completed. -/
structure BarDone where
  ctx : Nat
  tid : Nat
  phase : Nat
  arrival : Nat
  result : Word64
  deriving DecidableEq, Repr

/-- A named barrier. -/
structure Barrier where
  owner : Option Nat := none    -- FILLING: its context
  count : Nat := 0
  op : Nat := 0
  km1 : Nat := 0
  layer : Nat := 0
  phase : Nat := 0
  arrivals : Nat := 0
  contribs : List (Nat × Nat × Word64) := []  -- tid, position number (R146), contribution, in the order of the arrivals
  done : List BarDone := []
  deriving DecidableEq, Repr

/-! ### Translation (chapter 12) -/

/-- A TLB entry (R168, R171): the leaf's frame and attributes. -/
structure TlbEntry where
  pa : Nat
  tgt : Nat := 0
  rmod : Nat := 0
  w : Bool := false
  x : Bool := false
  sv : Bool := false
  mark : Bool := false
  d : Bool := false
  lvl : Nat := 3                -- the level of the leaf: 3 512 KiB, 2 256 MiB, 1 128 GiB
  deriving DecidableEq, Repr

/-- The kind of an access (R169). -/
inductive Acc3 where
  | read | write | fetch
  deriving DecidableEq, Repr

/-- The agent that waits for a walk. -/
inductive Waiter where
  | slot (k : Nat)
  | lathe (l : Nat)
  | poll (k : Nat)              -- the `nwait` of a slot (R148)
  | spilled (ctx tid : Nat)     -- the `nwait` of a spilled thread (R121)
  | queue (ctx q : Nat)         -- dispatch, for the head of a queue (R80, R83)
  | done (launch : Nat)         -- a done word (R90)
  | xfer (cluster id : Nat)     -- a transfer (R318)
  | code (l : Nat)              -- a Lathe's bundle
  | prefetch (core hyp : Nat)   -- a `pf` that a core has issued under a hypothesis (R247)
  deriving DecidableEq, Repr

/-- What a walk is for: an access, whose a and d bits it sets (R170), or a pin or an unpin, which is none (R179; assumption 39). -/
inductive WalkKind where
  | access
  | pin
  | unpin
  deriving DecidableEq, Repr

/-- A request merged into a walk (R172). -/
structure WalkReq where
  who : Waiter
  cluster : Nat
  va : Nat                      -- the address translated
  faddr : Word64                -- what TADDR reports (R328)
  acc : Acc3
  user : Bool
  kind : WalkKind := .access
  slotNo : Nat := 0             -- the Lathe slot to report
  pc : Nat := 0
  deriving DecidableEq, Repr

/-- A walk outstanding on a die: context, va[55:19], its requesters. -/
structure Walk where
  ctx : Nat
  vpn : Nat
  reqs : List WalkReq
  deriving DecidableEq, Repr

/-- A die: its TLB and walks.
DESIGN CHOICE, unsafe: assumption 4. -/
structure Die where
  tlb : Map TlbEntry := []
  walks : List Walk := []
  failed : List (Nat × WalkReq × Nat) := []  -- faults of merged walks that units other than slots and Lathes have yet to take: context, request, reason (R172)
  deriving DecidableEq, Repr

/-- An entry of a version directory (R160): one 32-byte sector under one id of one context. -/
structure Version where
  ctx : Nat
  id : Nat
  sector : Nat                  -- physical address of the sector, over 32
  va : Nat := 0                 -- its global address, over 32 (Table 11-2)
  mask : BitVec 32
  bytes : List Byte             -- 32 bytes; unmasked bytes are zero
  deriving DecidableEq, Repr

/-- Whose `nwait` a waiter entry serves: a parked slot's, or that of a thread which the spill engine has taken out of its slot (R121). -/
inductive Watcher where
  | slot (k : Nat)
  | spilled (ctx tid : Nat)
  deriving DecidableEq, Repr

/-- A waiter entry of an `nwait` (R148): whose it is, the physical address of its word, the value that the wait read last, and whether a
write has met its threshold. -/
structure WaitEntry where
  who : Watcher
  pa : Nat
  seen : Nat := 0
  met : Bool := false
  deriving DecidableEq, Repr

/-- An L2 slice: version directory (most recently used first), waiter entries of `nwait`, and the contexts in a
segment-full episode (R148, R160, R161).
DESIGN CHOICE, unsafe: assumption 4. -/
structure Slice where
  dir : List Version := []
  waiters : List WaitEntry := []
  fullFor : List Nat := []
  deriving DecidableEq, Repr

/-! ### Contexts (chapter 4) -/

/-- Table 4-1 `state`. -/
inductive CtxSt where
  | free | loading | running | checkpointed | saving | saved | restoring | faulted | teardown
  deriving DecidableEq, Repr

/-- Table 11-1. -/
inductive HypSt where
  | free | live | merging | refuting | retired | dead
  deriving DecidableEq, Repr

/-- A node of a hypothesis tree (R150). -/
structure Hyp where
  st : HypSt := .free
  parent : Nat := 0
  heir : Nat := 0
  deriving DecidableEq, Repr

/-- A request at the hypothesis unit (R150). -/
inductive HypReq where
  | hnew (k : Nat) (stamp parent : Nat)
  | hconf (k : Nat) (id : Nat)
  | href (k : Nat) (id : Nat)
  deriving DecidableEq, Repr

/-- A toll in progress (R163): the id confirmed, the ids refuted, and the slot that resolves. -/
structure Toll where
  confirm : Option Nat
  refute : List Nat
  slot : Nat
  tid : Nat := 0                -- of the thread that resolves: it may be spilled before the toll completes (R121)
  paid : List (Nat × Nat × Version) := []  -- log records of the resolved ids whose reading and clearing have been debited (R112, R160)
  deriving DecidableEq, Repr

/-- An entry of a launch queue: a record address and the order of its post (R110). -/
structure LqEntry where
  rec_ : Word64
  stamp : Nat
  deriving DecidableEq, Repr

/-- What dispatch takes from a launch record and the kernel header (R80, Tables 5-1, 5-2). -/
structure LaunchRec where
  rec_ : Word64 := 0
  kimg : Nat := 0
  nf : Nat := 0
  tcls : Bool := false
  prio : Nat := 0
  lmask : Nat := 0
  dmask : Nat := 0
  cmask : Nat := 0
  widths : List Nat := []
  exts : List Nat := []         -- E_i = ext_i + 1
  dep0 : Nat := 0
  dep1 : Nat := 0
  thr0 : Nat := 0
  thr1 : Nat := 0
  met0 : Bool := false          -- the dependence has been met
  met1 : Bool := false
  done : Nat := 0
  args : List Word64 := []
  csize : Nat := 0
  coff : Nat := 0
  soff : Nat := 0
  sentry : Nat := 0
  loff : Nat := 0
  lentry : Nat := 0
  deriving DecidableEq, Repr

/-- A launch queue (R92). -/
structure LaunchQueue where
  en : Bool := true
  ovf : Bool := false
  entries : List LqEntry := []
  parked : List (Nat × Word64) := []  -- slots whose `launch` waits, in order, each with its record address
  head : Option LaunchRec := none
  fetched : List Fetched := []  -- bytes of other modules that dispatch has read for the head
  deriving DecidableEq, Repr

/-- The five Tempo classes (R111). -/
structure Budgets where
  issue : Nat := 0
  chuck : Nat := 0
  link : Nat := 0
  car : Nat := 0
  evict : Nat := 0
  deriving DecidableEq, Repr

/-- The balances of one context in one cluster. -/
structure Balances where
  issue : Int := 0
  chuck : Int := 0
  link : Int := 0
  car : Int := 0
  evict : Int := 0
  deriving DecidableEq, Repr

/-- Table 12-7. -/
inductive PageSt where
  | absent | filling | resident | evicting | writing
  deriving DecidableEq, Repr

/-- A managed page the page unit is at work on, or holds resident (R174 to R178). -/
structure MPage where
  st : PageSt := .absent
  entry : Nat := 0              -- physical address of its level-3 entry
  frame : Option Nat := none
  order : Nat := 0              -- when it was filled (R177)
  forPevict : Bool := false
  forFill : Option Nat := none  -- the page whose fill forces this eviction
  cluster : Nat := 0            -- the cluster whose request forced it (R111)
  forced : Bool := false        -- a fill forced this eviction: its writeback is debited (R112)
  short : Bool := false         -- FRAME_SHORT has been taken in this episode
  wanted : Option Nat := none   -- a request waits for the page: its cluster
  deriving DecidableEq, Repr

/-- A spilled thread, or one that a restore brings back: its slot record is in memory (R121, R337, R338). -/
structure Spilled where
  addr : Nat                    -- physical address of the slot record
  core : Nat
  slot : Nat
  onCommand : Bool := false     -- spilled by SPILLCMD: re-admitted by command 2 only
  launch : Option Nat := none
  sent : Bool := false          -- its restore message is on its way
  met : Bool := false           -- a write met the threshold of its `nwait` before its context was saved (R148)
  seen : Option (Nat × Nat) := none  -- what the last poll of its notification word answered: status, value (R148)
  rest : Slot := {}             -- what the slot record does not hold
  deriving DecidableEq, Repr

/-- A context.
DESIGN CHOICE, unsafe: assumption 4. DESIGN CHOICE, unsafe: assumption 5. -/
structure Ctx where
  addr : Nat := 0               -- CCTL addr, bits [55:12]
  loadAddr : Nat := 0           -- the addr that the LOAD in progress was given (R70)
  st : CtxSt := .free
  status : Nat := 0
  ovfb : Nat := 0
  cstrict : Bool := false
  prio : Nat := 0
  budgets : Budgets := {}
  hlog : Nat := 0
  saveb : Nat := 0
  pab : Nat := 0
  ptroot : Nat := 0
  ovec : Word64 := 0            -- k4
  trapc : Nat := 0              -- k5
  pfxb : Word64 := 0            -- k6
  lref : Nat := 0               -- k10
  lflag : BitVec 256 := 0       -- k16 to k19
  queues : Map LaunchQueue := []
  logAt : Map Nat := []         -- the physical sector of each log record written, by 512·slice + record (R161, Table 11-2)
  seq : Nat := 0                -- launches dispatched (Table 5-3)
  hyps : Map Hyp := []          -- ids 1 to 255; id 0 is always present
  unitQ : List HypReq := []
  toll : Option Toll := none
  live : List Word64 := []      -- the live set of a checkpoint: entries w1 to wn (R275)
  lapses : Nat := 0             -- lapse events counted since LOAD (R74, R275)
  saveArea : Nat := 0           -- the save area in use (R73)
  compact : Bool := false       -- the save in progress is compact
  before : CtxSt := .free       -- the state before RESTORING
  away : Bool := false          -- from the start of a save until the context runs again (R76)
  tids : List Nat := []         -- identities in use (R114)
  recs : List (TrapRec × Option Waiter) := []  -- trap records that wait for room in the ring (R332), or for their turn (R333)
  recAt : Option (Nat × Nat) := none  -- the cycle in which the last record was written, and its place in the order of that cycle (R333)
  spilled : Map Spilled := []   -- by tid
  inv : List (Option Nat) := []  -- TLBINVs in progress: a page, or every entry
  pevictRes : Nat := 0
  image : Nat := 0              -- the name of the save image that a SAVED context was written to; 0: none
  frames : List Nat := []       -- frame ring, oldest first
  puOvf : Bool := false
  pins : Map Nat := []          -- page (level and base) to count (R179)
  pages : Map MPage := []       -- by va[55:19]
  deriving DecidableEq, Repr

/-- Table 5-4, from LOADED on; a PENDING launch is still in its queue. -/
inductive LaunchSt where
  | loaded | launched | parked | draining
  | completing  -- it is done, and its done word is not yet incremented (R90)
  deriving DecidableEq, Repr

/-- A part of a launch that a cluster's dispatch stage holds until a core's window is free (R102). -/
structure HeldPart where
  core : Nat
  first : Nat
  count : Nat
  deriving DecidableEq, Repr

/-- A launch in progress (R88). -/
structure Launch where
  ctx : Nat
  q : Nat
  seq : Nat
  r : LaunchRec
  consts : List Word32 := []    -- the constant image, words 0 to 247 (R84, R86)
  st : LaunchSt := .loaded
  lathes : List Nat := []       -- bound Lathes not yet released
  held : List HeldPart := []    -- parts held for a core (R102)
  asked : Bool := false         -- the add to its done word has left for another module (R90)
  deriving DecidableEq, Repr

/-! ### Chuck and Carillon (chapter 19) -/

/-- A transfer that has been accepted (Table 19-1: RUNNING or COMPLETING). -/
structure Xfer where
  id : Nat
  req : Request
  blk : List Word64 := []       -- its parameter block, w0 to w15; none: the block is still being read
  uncached : Bool := false      -- a `pbinv` came while its block was being read: the block does not enter the cache (R266)
  accepted : Bool := false      -- it has been accepted, or refused; until then the request is in its FIFO (R318)
  total : Nat := 0              -- its tuples, updates, records or rows
  pos : Nat := 0                -- the next of them
  status : Nat := 0             -- status of the earliest one that ended other than DONE
  statusAt : Nat := 0           -- that one
  faddr : Word64 := 0
  reason : Nat := 0
  stopAt : Option Nat := none   -- the first one whose access met a stopping status
  fetched : List Fetched := []  -- bytes of other modules that the access at hand has read (R321)
  busy : Bool := false          -- it holds the busy bit of the bin at hand (R323, R324)
  asked : Bool := false         -- the read-modify-write of a fill word of another module is on its way
  upd : Option (Nat × List Byte × Bool) := none  -- BIN: the bin and the record of the update at hand, and whether it comes from an MK page
  fill : Nat := 0               -- the records that the fill word counted when the busy bit was set
  posted : Bool := false        -- the record of the append at hand has left for another module
  held : Map (Byte × Nat × Bool) := []  -- bytes not yet written, by address, or by offset in a tile: their tuple, and whether they come from an MK page (R50)
  query : List Byte := []       -- SWEEP: the query
  stripes : List Nat := []      -- SWEEP: the physical address of each stripe
  rows : List Nat := []         -- SWEEP: rows not yet written
  sent : Option Nat := none     -- its completion message waits for room, under this name (R97)
  deriving DecidableEq, Repr

/-- A cached parameter block (R319). -/
structure PbEntry where
  addr : Nat                    -- the block's global address
  ctx : Nat
  hyp : Nat
  words : List Word64
  stamp : Nat                   -- when its read began (R266)
  deriving DecidableEq, Repr

/-- A cluster.
DESIGN CHOICE, unsafe: assumption 4. -/
structure Cluster where
  tlb : Map TlbEntry := []      -- cluster TLB (R171)
  barriers : Map Barrier := []
  pb : List PbEntry := []       -- most recently used first, at most 64
  rr : Nat := 19                -- the FIFO served last: 0 to 15 cores, 16 to 19 Lathes (R98; assumption 6)
  xfers : List Xfer := []
  looked : List (Nat × Nat × Nat) := []  -- reads whose log reads the step at hand of a transfer has been debited for: transfer, address, bytes (R160)
  bal : Map Balances := []      -- by context (R111)
  scalest : Map Nat := []       -- by context: ORPHAN_SCALE bits of the four Lathes (R305, k13)
  deriving DecidableEq, Repr

/-! ### Save images (R75, Table 20-6) -/

/-- A tile in a save image: its key, its entry, the bytes of its footprint that are not zero, by offset, and its poisoned sectors. -/
structure SavedTile where
  key : Nat
  tile : Tile
  bytes : Memory
  lost : List Nat
  deriving DecidableEq, Repr

/-- What a save image stands for. The spec gives the layout of its header and of its slot records only (Table 20-3, Table 20-6a);
`pieces` are the bytes that the save wrote, by offset in the save area, and the rest is what a restore finds by them. -/
structure Image where
  stamp : Nat
  area : Nat                    -- physical address of the save area
  ctx : Nat
  compact : Bool
  pieces : List (Nat × List Byte)
  c : Ctx
  saved : List Nat              -- identities whose slot records the image holds
  cores : Map Core              -- of each core: the context's messages, task records, window and pushed requests
  mesh : List (Nat × Msg)
  lathes : Map Lathe
  fifos : Map Fifo              -- of each Lathe: the requests pushed and not accepted, and its counter
  records : Nat × Nat           -- the offset and the length of the slot records
  tiles : List SavedTile
  versions : List (Nat × Version)
  launches : Map Launch
  bal : Map Balances            -- by cluster
  scalest : Map Nat             -- by cluster
  deriving DecidableEq, Repr

/-! ### Links and the host attachment (chapter 13) -/

/-- A packet (R191): Table 13-4 and its payload. -/
structure Packet where
  op : Nat
  dst : Nat
  src : Nat
  ctx : Nat := 0
  len : Nat := 0                -- the field: payload length, or bytes to read, minus 1
  tag : Nat := 0
  flags : Nat := 0
  addr : Nat := 0               -- w1 [55:0]
  pay : List Byte := []
  deriving DecidableEq, Repr

/-- What the answer to a link request concerns (R194). -/
inductive LinkWho where
  | load (k reg : Nat) (conv : Conv) (faddr : Word64) (pc : Nat) -- READ or AMO of a slot
  | posted (slots : List Nat) (ctx : Nat) -- WRITE, NOTIFY, tile write of slots
  | tsq (k reg ctx : Nat)
  | poll (k : Nat)                        -- `nwait` (R148)
  | pollSpilled (ctx tid : Nat)           -- the `nwait` of a spilled thread
  | fetch (k stamp : Nat)                 -- a word that an instruction of a slot reads
  | xfer (cluster id tuple : Nat)         -- a write of a transfer
  | xferRead (cluster id tuple : Nat)
  | launch (ctx q : Nat)                  -- bytes that dispatch reads for the head of a queue
  | done (launch : Nat)                   -- the add to a done word (R90)
  | code (l : Nat)                        -- a word of a Lathe's bundle
  | discard                               -- a prefetch
  deriving DecidableEq, Repr

/-- A link request sent and not answered (R195). -/
structure LinkReq where
  tag : Nat
  port : Nat
  deadline : Nat
  ctx : Nat
  key : Nat                     -- the name that its issuer knows it by
  p : Packet
  who : LinkWho
  deriving DecidableEq, Repr

/-- A link operation that waits for egress (R112, R195). -/
structure Egress where
  cluster : Nat
  ctx : Nat
  key : Nat                     -- names it to its issuer until it has a tag
  p : Packet
  who : LinkWho
  deriving DecidableEq, Repr

/-- Table 13-2. -/
inductive PortSt where
  | down | training | up | degraded | fenced
  deriving DecidableEq, Repr

/-- A Korair Link port. -/
structure Port where
  st : PortSt := .down
  en : Bool := false
  gen : Nat := 0
  pair : Nat := 0
  badpkt : Nat := 0
  soft : Nat := 0
  trainAt : Nat := 0            -- when training began
  failed : Nat := 0             -- lanes taken down: bit n is lane n
  txSeq : Nat := 0              -- sequence number of the next flit sent
  out : List (BitVec 2048) := []    -- flits sent, oldest first: what the other end sees
  replay : List (Nat × BitVec 2048) := []  -- flits sent and not acknowledged (R189)
  rxSeq : Nat := 0              -- sequence number expected next
  bad : Option Nat := none      -- a bad CRC was seen: its lane syndromes, and a replay is awaited
  slots : List (BitVec 128) := []   -- slots of a packet not yet complete
  rx : List Packet := []        -- packets received and not yet processed, oldest first
  deriving DecidableEq, Repr

/-- A link window entry (Table 13-7), as its two words. -/
structure Window where
  lo : Word64 := 0
  hi : Word64 := 0
  deriving DecidableEq, Repr

/-- The links of the module.
DESIGN CHOICE, unsafe: assumption 4. -/
structure Links where
  ports : Map Port := []
  lmod : Nat := 0               -- this module's number
  windows : Map Window := []
  reqs : List LinkReq := []
  late : List (Nat × Nat × Bool) := [] -- ports and tags of requests that ended without a RESP, and whether it may carry data: the tags wait for it (R195)
  egress : List Egress := []
  deriving DecidableEq, Repr

/-- Table 13-9: the mode the host attachment trained to. -/
inductive HostMode where
  | cxl31 | cxl20 | cxl11 | pcie6 | pcie5
  deriving DecidableEq, Repr

/-! ### Management (chapter 27) -/

/-- Table 27-1. -/
inductive BootSt where
  | rom | verify | ready | bootfail
  deriving DecidableEq, Repr

/-- A mark job (R365, R366): its descriptor, and the source frames held for it. -/
structure MarkJob where
  words : List Word64
  pages : Map Nat := []         -- physical address of each 512 KiB source page, by va[55:19]
  old : List Byte := []         -- the source bytes at the start of the job (R366)
  waits : Bool := false         -- it waits for walkers to look its pages up (R172)
  deriving DecidableEq, Repr

/-- The management block and the units behind it. -/
structure Mgmt where
  boot : BootSt := .rom
  attAddr : Nat := 0            -- ATTREQ addr, bits [55:12]
  attRes : Nat := 0
  attBuf : Nat := 0             -- the buffer of the report in progress
  ltol : Nat := 0
  idle : Nat := 0
  pcap : Nat := 3600
  tsens : Word64 := 0
  thr : Nat := 0
  softHbm : Nat := 0
  softMem : Nat := 0
  softReg : Nat := 0
  fences : BitVec 256 := 0      -- fenced clusters
  retired : List Nat := []      -- retired frames
  mkState : Nat := 0
  mkOvf : Bool := false
  mkStatus : Nat := 0
  mkKey : BitVec 256 := 0
  mkJob : Option MarkJob := none
  spillCtx : Nat := 0           -- SPILLCMD fields (Table 20-7)
  spillCore : Nat := 0
  spillSlot : Nat := 0
  spillTid : Nat := 0
  spillRes : Nat := 0
  spillJob : Nat × Nat := (0, 0) -- the spill in progress: its context and slot
  logFence : BitVec 256 := 0    -- the boot flash's error log: clusters to fence at the next reset (R369)
  logRetire : List Nat := []    -- and frames to retire
  logLinks : Nat := 0           -- and lasting link faults (R188)
  off : Bool := false           -- the 48 V load has been removed (R368)
  deriving DecidableEq, Repr

/-! ### The machine -/

/-- A write that only one view of scratchpad is sure to see (R68): the value the other view may still return, and
whether the swizzled view wrote last. -/
structure ViewByte where
  old : Byte
  bySwz : Bool
  deriving DecidableEq, Repr

/-- One J4M module. -/
structure State where
  ctl : Ctl                     -- the model's own fields
  cycle : Nat                   -- CYCLE (k9)
  hbm : Memory                  -- module physical memory, 2^39 bytes (R165)
  sp : Memory                   -- scratchpads: byte 2^22·cluster + offset (R42)
  views : Map ViewByte          -- scratchpad bytes between the two views (R68)
  host : Memory                 -- host memory, by host physical address
  marked : List Nat             -- frames whose MK bit is set (R373)
  poison : List Nat             -- poisoned 32-byte sectors of HBM (R336)
  spPoison : List Nat           -- poisoned 32-byte sectors of scratchpad
  hostBad : List Nat            -- 32-byte sectors of host memory whose reads complete with an error or poison (R199)
  slots : Map Slot
  cores : Map Core
  lathes : Map Lathe
  clusters : Map Cluster
  tiles : Map Tile
  dies : Map Die
  dieBarriers : Map (Map Barrier)
  modBarriers : Map Barrier
  slices : Map Slice
  ctxs : Map Ctx
  launches : Map Launch
  images : List Image           -- save images that this module has written, the latest first
  mesh : List (Nat × Msg)       -- messages in flight: destination core, message; oldest first
  links : Links
  hostMode : Option HostMode
  mgmt : Mgmt
  deriving DecidableEq, Repr

/-- The module right after reset: boot state ROM, every slot FREE, every unit at the reset values of its chapter; where the
spec gives none, at the values of assumptions 1 to 6.
DESIGN CHOICE, unsafe: assumption 3. DESIGN CHOICE, unsafe: assumption 4. DESIGN CHOICE, unsafe: assumption 5. -/
def State.reset : State :=
  { ctl := {}, cycle := 0, hbm := [], sp := [], views := [], host := [], marked := [], poison := [], spPoison := [], hostBad := [],
    slots := [], cores := [], lathes := [], clusters := [], tiles := [], dies := [], dieBarriers := [], modBarriers := [],
    slices := [], ctxs := [], launches := [], images := [], mesh := [], links := {}, hostMode := none, mgmt := {} }

/-- Why the machine stops. -/
inductive Fault where
  /-- An access at a physical address that the module physical map does not hold (R165). No meaning answers with it: every path of
  the device that could meet such an address is told by a rule what to report. Safe: a claim that a step faults is provable of none. -/
  | physicalHole
  deriving DecidableEq, Repr

/-- Why the model gives no meaning. -/
inductive Refusal where
  /-- An instruction that has no meaning yet. Raised by `exec`. Safe. -/
  | notModelled (mnemonic : String)
  deriving DecidableEq, Repr

end Sys2Proof.Machine
end

