-- ==== Sys2Proof/Machine/Access.lean ====
section
/-! DEFINITION. Reading and writing one unit of the state, registers of a slot, and free values. -/

namespace Sys2Proof.Machine

/-- What a meaning answers. -/
abbrev Out := Host.Outcome State Fault Refusal

def State.slot (s : State) (k : Nat) : Slot := Map.get s.slots k {}
def State.setSlot (s : State) (k : Nat) (x : Slot) : State := { s with slots := Map.set s.slots k x }
def State.core (s : State) (n : Nat) : Core := Map.get s.cores n {}
def State.setCore (s : State) (n : Nat) (x : Core) : State := { s with cores := Map.set s.cores n x }
def State.lathe (s : State) (l : Nat) : Lathe := Map.get s.lathes l {}
def State.setLathe (s : State) (l : Nat) (x : Lathe) : State := { s with lathes := Map.set s.lathes l x }
def State.cluster (s : State) (c : Nat) : Cluster := Map.get s.clusters c {}
def State.setCluster (s : State) (c : Nat) (x : Cluster) : State := { s with clusters := Map.set s.clusters c x }
def State.tile (s : State) (t : Nat) : Tile := Map.get s.tiles t {}
def State.setTile (s : State) (t : Nat) (x : Tile) : State := { s with tiles := Map.set s.tiles t x }
def State.die (s : State) (d : Nat) : Die := Map.get s.dies d {}
def State.setDie (s : State) (d : Nat) (x : Die) : State := { s with dies := Map.set s.dies d x }
def State.slice (s : State) (n : Nat) : Slice := Map.get s.slices n {}
def State.setSlice (s : State) (n : Nat) (x : Slice) : State := { s with slices := Map.set s.slices n x }
def State.ctx (s : State) (c : Nat) : Ctx := Map.get s.ctxs c {}
def State.setCtx (s : State) (c : Nat) (x : Ctx) : State := { s with ctxs := Map.set s.ctxs c x }

/-- The key of the slot that issues. -/
def State.key (s : State) : Nat := 16 * s.ctl.at_.core + s.ctl.at_.slot
/-- The slot that issues. -/
def State.cur (s : State) : Slot := s.slot s.key
/-- Replaces the slot that issues. -/
def State.setCur (s : State) (x : Slot) : State := s.setSlot s.key x
/-- The issuing core's number. -/
def State.coreNo (s : State) : Nat := s.ctl.at_.core
/-- The cluster of a core. -/
def clusterOf (core : Nat) : Nat := core / 16
/-- The die of a cluster. -/
def dieOf (cluster : Nat) : Nat := cluster / 64

/-- The next free choice (assumption 2).
DESIGN CHOICE, safe: assumption 2. -/
def State.freeBit (s : State) : Bool := Config.freeBool s.ctl.free
/-- Counts one free value as taken.
DESIGN CHOICE, safe: assumption 2. -/
def State.tookFree (s : State) : State := { s with ctl := { s.ctl with free := s.ctl.free + 1 } }

/-- A register of a slot. -/
def Slot.reg (x : Slot) (r : Nat) : Reg := Map.get x.regs r {}
/-- The value of a register. -/
def Slot.g (x : Slot) (r : Nat) : Word64 := (x.reg r).v
/-- Writes a register and sets it FULL (R116). -/
def Slot.fillReg (x : Slot) (r : Nat) (v : Word64) (dep : Nat) : Slot :=
  { x with regs := Map.set x.regs r { st := .full, v := v, dep := dep } }
/-- Sets a register PENDING (R116). -/
def Slot.pendReg (x : Slot) (r : Nat) : Slot :=
  { x with regs := Map.set x.regs r { st := .pending, v := 0, dep := 0 } }
/-- Sets a register EMPTY (R251). -/
def Slot.emptyReg (x : Slot) (r : Nat) : Slot :=
  { x with regs := Map.set x.regs r {} }

/-- Moves past a 4-byte instruction. -/
def Slot.advance (x : Slot) : Slot := { x with pc := x.pc + 4 }

/-- The latest dependency time among registers (R47). -/
def Slot.depOf (x : Slot) (rs : List Nat) : Nat := rs.foldl (fun m r => max m (x.reg r).dep) 0

/-! ### Physical memory -/

/-- The size of module HBM (R165). -/
def hbmSize : Nat := 2 ^ 39

/-- n bytes at a lie wholly in module HBM. -/
def inHbm (a n : Nat) : Bool := decide (a + n ≤ hbmSize)

/-- The number that n bytes of HBM hold, little-endian. -/
def State.hbmRead (s : State) (a n : Nat) : Nat := leNat (Memory.readBytes s.hbm a n)

/-- The sectors of 32 bytes that n bytes from a cover whole. -/
def coversSector (a n sector : Nat) : Bool := decide (a ≤ 32 * sector) && decide (32 * sector + 32 ≤ a + n)

/-- Writes bytes of committed HBM; a sector written whole is no longer poisoned (R336). -/
def State.hbmWrite (s : State) (a : Nat) (bs : List Byte) : State :=
  { s with hbm := Memory.writeBytes s.hbm a bs
           poison := s.poison.filter (fun x => !coversSector a bs.length x) }

/-- Writes n little-endian bytes of a number. -/
def State.hbmWriteNat (s : State) (a n v : Nat) : State := s.hbmWrite a (leBytes n v)

/-- A byte range meets a poisoned sector of HBM (R336). -/
def State.poisoned (s : State) (a n : Nat) : Bool :=
  s.poison.any (fun x => decide (32 * x < a + n) && decide (a < 32 * x + 32))

/-- The scratchpad address of a cluster's byte (R42). -/
def spAddr (cluster off : Nat) : Nat := cluster * 2 ^ 22 + off

/-- A linear-view read of a scratchpad byte: where only the swizzled view is sure to see the last write, the old or the new
value (R68), by a free choice. -/
def State.spByte (s : State) (a : Nat) : Byte :=
  match Map.find? s.views a with
  | some vb => if vb.bySwz && Config.freeView s.ctl.free a then vb.old else Memory.readByte s.sp a
  | none => Memory.readByte s.sp a

/-- n bytes of the linear view. -/
def State.spBytes (s : State) (a : Nat) : Nat → List Byte
  | 0 => []
  | n + 1 => s.spByte a :: s.spBytes (a + 1) n

/-- A byte of the swizzled view (R68).
DEDUCED, unsafe: assumption 66. -/
def State.swzByte (s : State) (a : Nat) : Byte :=
  match Map.find? s.views a with
  | some vb => if !vb.bySwz && Config.freeView s.ctl.free a then vb.old else Memory.readByte s.sp a
  | none => Memory.readByte s.sp a

/-- Notes that one view has written a byte: the other view may still return the value before that write (R68).
DEDUCED, unsafe: assumption 66. -/
def viewWrite (m : Map ViewByte) (a : Nat) (cur : Byte) (bySwz : Bool) : Map ViewByte := Map.set m a { old := cur, bySwz := bySwz }

/-- Writes scratchpad bytes through one view. -/
def State.spWrite (s : State) (a : Nat) (bySwz : Bool) : List Byte → State
  | [] => s
  | b :: r =>
    State.spWrite { s with sp := Memory.writeByte s.sp a b
                           views := viewWrite s.views a (Memory.readByte s.sp a) bySwz } (a + 1) bySwz r

/-- A view join over n bytes (R68).
DEDUCED, unsafe: assumption 66. -/
def State.viewJoin (s : State) (a n : Nat) : State :=
  { s with views := s.views.filter (fun p => !(decide (a ≤ p.1) && decide (p.1 < a + n))) }

/-- A scratchpad write poisons nothing and heals the sectors it covers (R336). -/
def State.healSp (s : State) (a n : Nat) : State :=
  { s with spPoison := s.spPoison.filter (fun x => !coversSector a n x) }

/-- A lasting error of the boot flash's log names a cluster (R369).
DEDUCED, unsafe: assumption 59. -/
def State.fenced (s : State) (cluster : Nat) : Bool := s.mgmt.fences.getLsbD cluster

/-- n bytes at a lie in module HBM and in no retired frame (R165, R369). -/
def State.inMap (s : State) (a n : Nat) : Bool :=
  inHbm a n && !s.mgmt.retired.any (fun f => decide (f * 2 ^ 19 < a + n) && decide (a < (f + 1) * 2 ^ 19))

/-- R362: a write to BAR0 outside the management block is ignored before READY. -/
def State.whenReady (s t : State) : Out := .next (if s.mgmt.boot = .ready then t else s)

end Sys2Proof.Machine
end

