-- ==== Sys2Proof/Machine/Translate.lean ====
section
/-! DEFINITION. Address translation: page-table entries, walks, checks, TLBs (R165 to R172, R373). -/

namespace Sys2Proof.Machine

/-! ### Page-table entries (Table 12-3) -/

def pteV (e : Nat) : Bool := e.testBit 0
def pteLeaf (e : Nat) : Bool := e.testBit 1
def pteW (e : Nat) : Bool := e.testBit 2
def pteX (e : Nat) : Bool := e.testBit 3
def pteSv (e : Nat) : Bool := e.testBit 4
def pteMk (e : Nat) : Bool := e.testBit 5
def pteM (e : Nat) : Bool := e.testBit 6
def pteTgt (e : Nat) : Nat := bitsOf e 8 7
def pteA (e : Nat) : Bool := e.testBit 9
def pteD (e : Nat) : Bool := e.testBit 10
def ptePa (e : Nat) : Nat := bitsOf e 53 12 * 4096
def pteRmod (e : Nat) : Nat := bitsOf e 63 54

/-- log2 of the page size of a leaf at a level (Table 12-2). -/
def pageLog (lvl : Nat) : Nat :=
  match lvl with
  | 1 => 37
  | 2 => 28
  | _ => 19

/-- The index of a va at a level (Table 12-2). -/
def levelIndex (lvl va : Nat) : Nat :=
  match lvl with
  | 0 => bitsOf va 55 46
  | 1 => bitsOf va 45 37
  | 2 => bitsOf va 36 28
  | _ => bitsOf va 27 19

/-- R169: a valid entry that is malformed at its level. A table or page that reaches a frame removed from the module map (R369) does not
lie wholly in module HBM.
DEDUCED, unsafe: assumption 62. -/
def State.pteMalformed (s : State) (lvl e : Nat) : Bool :=
  e.testBit 11 || pteTgt e == 3
  || (!pteLeaf e && (pteTgt e != 0 || lvl == 3))
  || (pteLeaf e && lvl == 0)
  || (pteLeaf e && ptePa e % 2 ^ pageLog lvl != 0)
  || (pteM e && (lvl != 3 || pteTgt e != 0))
  || (pteMk e && (pteTgt e != 0 || pteM e))
  || (pteTgt e == 2 && decide (575 < pteRmod e))
  || (pteTgt e != 2 && pteRmod e != 0)
  || (!pteLeaf e && !s.inMap (ptePa e) 4096)
  || (pteLeaf e && pteTgt e == 0 && !s.inMap (ptePa e) (2 ^ pageLog lvl))

/-- What a walk finds. -/
inductive WalkRes where
  | leaf (lvl entry e : Nat)    -- a valid leaf: its level, the address of its entry, the entry
  | absent (entry : Nat)        -- an absent managed page (R169)
  | fault (reason : Nat)        -- Table 12-4
  deriving DecidableEq, Repr

/-- R169: reads one entry per level from the table on.
DEDUCED, unsafe: assumption 62. -/
def State.walkFrom (s : State) (va : Nat) : List Nat → Nat → WalkRes
  | [], _ => .fault 4
  | lvl :: rest, table =>
    let a := table + 8 * levelIndex lvl va
    let e := s.hbmRead a 8
    if !pteV e then (if lvl == 3 && pteM e && pteLeaf e then .absent a else .fault 1)
    else if s.pteMalformed lvl e then .fault 4
    else if pteLeaf e then .leaf lvl a e
    else s.walkFrom va rest (ptePa e)

/-- A walk of a context's tables (R167). -/
def State.walk (s : State) (ctx va : Nat) : WalkRes := s.walkFrom va [0, 1, 2, 3] ((s.ctx ctx).ptroot * 4096)

/-- R169, R44, R372: the check of an access at a leaf; the reason if it fails: SUPERVISOR before PERMISSION. `exempt`: an
access through the private window. -/
def leafCheck (sv w x : Bool) (acc : Acc3) (user exempt : Bool) : Option Nat :=
  if sv && user && !exempt then some 3
  else match acc with
    | .read => none
    | .write => if w then none else some 2
    | .fetch => if x then none else some 2

/-- R170: the entry after a walk whose access passes. -/
def pteTouched (e : Nat) (acc : Acc3) : Nat :=
  let e1 := setBits e 9 9 1
  match acc with
  | .write => setBits e1 10 10 1
  | _ => e1

/-- The TLB entry of a leaf. -/
def tlbOfPte (lvl e : Nat) : TlbEntry :=
  { pa := ptePa e, tgt := pteTgt e, rmod := pteRmod e, w := pteW e, x := pteX e, sv := pteSv e, mark := pteMk e, d := pteD e, lvl := lvl }

/-- The key of a translation: context, level of the leaf, page. -/
def tlbKey (ctx lvl va : Nat) : Nat := (ctx * 4 + lvl) * 2 ^ 37 + va / 2 ^ pageLog lvl

/-- The entry of a TLB that covers a va. -/
def tlbFind (t : Map TlbEntry) (ctx va : Nat) : Option TlbEntry :=
  match Map.find? t (tlbKey ctx 3 va) with
  | some e => some e
  | none => match Map.find? t (tlbKey ctx 2 va) with
    | some e => some e
    | none => Map.find? t (tlbKey ctx 1 va)

/-- The entries of a cluster TLB, and of a die TLB (Table 12-5). -/
def clusterTlbSize : Nat := 2048
def dieTlbSize : Nat := 65536

/-- Puts a translation into a TLB; of a full one, a free choice of entry leaves.
DESIGN CHOICE, safe: assumption 72. -/
def tlbPut (size n : Nat) (t : Map TlbEntry) (k : Nat) (e : TlbEntry) : Map TlbEntry :=
  if t.length < size ∨ (Map.find? t k).isSome then Map.set t k e else Map.set (t.eraseIdx (Config.freeNat n % t.length)) k e

/-- Puts a translation into a cluster TLB and its die's TLB (R172). -/
def State.tlbFill (s : State) (cluster ctx va : Nat) (e : TlbEntry) : State :=
  let k := tlbKey ctx e.lvl va
  let c := s.cluster cluster
  let d := s.die (dieOf cluster)
  (s.tookFree.setCluster cluster { c with tlb := tlbPut clusterTlbSize s.ctl.free c.tlb k e }).setDie (dieOf cluster)
    { d with tlb := tlbPut dieTlbSize s.ctl.free d.tlb k e }

/-- The translation that the cluster TLB, or the die TLB behind it, holds (R171).
DESIGN CHOICE, unsafe: assumption 8. -/
def State.tlbLook (s : State) (cluster ctx va : Nat) : Option TlbEntry :=
  match tlbFind (s.cluster cluster).tlb ctx va with
  | some e => some e
  | none => tlbFind (s.die (dieOf cluster)).tlb ctx va

/-- Numbers lo, lo + 1, …: n of them. -/
def numsFrom (lo : Nat) : Nat → List Nat
  | 0 => []
  | n + 1 => lo :: numsFrom (lo + 1) n

/-- R373: sets the MK bit of every frame of a page. -/
def State.markFrames (s : State) (e : TlbEntry) : State :=
  let frames := numsFrom (e.pa / 2 ^ 19) (2 ^ (pageLog e.lvl - 19))
  if e.mark then { s with marked := frames.foldl (fun l f => if l.contains f then l else f :: l) s.marked }
  else s

/-- The MK bit of the frame that holds a physical address (R373). -/
def State.isMarked (s : State) (pa : Nat) : Bool := s.marked.contains (pa / 2 ^ 19)

/-- A byte of an n-byte range lies in a marked frame. -/
def State.rangeMarked (s : State) (pa n : Nat) : Bool :=
  s.marked.any (fun f => decide (f * 2 ^ 19 < pa + n) && decide (pa < (f + 1) * 2 ^ 19))

/-- A passed walk: a and d written, MK bits set, TLBs filled (R170, R172, R373). -/
def State.walkUsed (s : State) (cluster ctx va lvl entry e : Nat) (acc : Acc3) : State :=
  let e' := pteTouched e acc
  let t := tlbOfPte lvl e'
  ((s.hbmWriteNat entry 8 e').markFrames t).tlbFill cluster ctx va t

/-- What a translation gives. -/
inductive Tr where
  | ok (e : TlbEntry) (pa : Nat)
  | fault (reason : Nat)
  | absent (entry : Nat)
  | miss                        -- no TLB holds it (or the first write through it): a walk must set a and d (R170)
  deriving DecidableEq, Repr

/-- Translation through the TLBs alone.
DESIGN CHOICE, unsafe: assumption 8. -/
def State.look (s : State) (cluster ctx va : Nat) (acc : Acc3) (user exempt : Bool) : Tr :=
  match s.tlbLook cluster ctx va with
  | none => .miss
  | some e =>
    match leafCheck e.sv e.w e.x acc user exempt with
    | some r => .fault r
    | none => if acc = .write && !e.d then .miss else .ok e (e.pa + va % 2 ^ pageLog e.lvl)

/-- A miss of a context's page on a die cannot walk at once: a walk of the page is outstanding, whose result it shares, or all 64
walkers are busy (R172). -/
def State.walkBusy (s : State) (die ctx va : Nat) : Bool :=
  let w := (s.die die).walks
  decide (64 ≤ w.length) || w.any (fun w => w.ctx == ctx && w.vpn == va / 2 ^ 19)

/-- The page unit's record, in any context, of the managed page whose entry lies at an address and that is in a state. -/
def State.pageAt (s : State) (entry : Nat) (st : PageSt) : Option (Nat × Nat) :=
  (s.ctxs.flatMap (fun p => (p.2.pages.filter (fun q => q.2.st == st && q.2.entry == entry)).map (fun q => (p.1, q.1)))).head?

/-- The entry of the leaf, or of the absent managed page, that a context's tables have for a va. -/
def State.entryOf (s : State) (ctx va : Nat) : Option Nat :=
  match s.walk ctx va with
  | .leaf _ a _ => some a
  | .absent a => some a
  | .fault _ => none

/-- Translation by an agent other than a spindle slot: a TLB hit, or a walk made on the spot (assumption 8). -/
def State.translate (s : State) (cluster ctx va : Nat) (acc : Acc3) (user exempt : Bool) : State × Tr :=
  match s.look cluster ctx va acc user exempt with
  | .miss =>
    match s.walk ctx va with
    | .fault r => (s, .fault r)
    | .absent a => (s, .absent a)
    | .leaf lvl a e =>
      match leafCheck (pteSv e) (pteW e) (pteX e) acc user exempt with
      | some r => (s, .fault r)
      | none =>
        (s.walkUsed cluster ctx va lvl a e acc, .ok (tlbOfPte lvl (pteTouched e acc)) (ptePa e + va % 2 ^ pageLog lvl))
  | r => (s, r)

/-! ### Address windows (Table 3-1) -/

/-- What a va denotes (R41). -/
inductive Window3 where
  | global
  | priv (off : Nat)
  | scratch (off : Nat)
  | none
  deriving DecidableEq, Repr

def windowOf (va : Nat) : Window3 :=
  if va < 0xFE000000000000 then .global
  else if va < 0xFE000000000000 + 2 ^ 20 then .priv (va - 0xFE000000000000)
  else if va < 0xFF000000000000 then .none
  else if va < 0xFF000000000000 + 2 ^ 22 then .scratch (va - 0xFF000000000000)
  else .none

/-- R43: the arena address of a private-window offset. -/
def State.arena (s : State) (ctx tid off : Nat) : Nat := (s.ctx ctx).pab * 2 ^ 28 + tid * 2 ^ 20 + off

/-- TADDR of a fault on a private-window access (R328). -/
def privTaddr (a : Nat) : Word64 := BitVec.ofNat 64 (2 ^ 63 + a)

/-- R166: the home slice of a physical address, 512·die + slice. -/
def homeSlice (a : Nat) : Nat :=
  512 * bitsOf a 38 37 + (((bitsOf a 16 8) ^^^ (bitsOf a 25 17)) ^^^ ((bitsOf a 34 26) ^^^ (bitsOf a 36 35)))

end Sys2Proof.Machine
end

