-- ==== Sys2Proof/Machine/HomeSlice.lean ====
section
/-! DEFINITION. The point of coherence of module HBM: committed bytes, and the versions that hypotheses hold (R45, R157 to R163). -/

namespace Sys2Proof.Machine

/-! ### The hypothesis tree (R150) -/

/-- A node of a context's tree; id 0 is the committed root. -/
def Ctx.hyp (x : Ctx) (id : Nat) : Hyp := if id = 0 then { st := .live } else Map.get x.hyps id {}

/-- id, then its ancestors, without the root. -/
def chainFrom (x : Ctx) : Nat → Nat → List Nat
  | 0, _ => []
  | n + 1, id => if id = 0 then [] else id :: chainFrom x n (x.hyp id).parent

/-- The ids whose versions a read under g sees, nearest first (R157). -/
def Ctx.chain (x : Ctx) (g : Nat) : List Nat := chainFrom x 256 g

/-- h is a descendant of a, or a itself. -/
def Ctx.isUnder (x : Ctx) (h a : Nat) : Bool := a == 0 || (x.chain h).contains a

/-! ### Versions (R157, R160, R161) -/

/-- A slice's log segment of a context (R161). -/
def State.logBase (s : State) (ctx slice : Nat) : Nat := (s.ctx ctx).hlog * 4096 + slice * 2 ^ 15

/-- The log records in use of a context (Table 11-2): slice, index, version. A record is in use when bit 63 of its w0 is 1. -/
def State.logRecords (s : State) (ctx : Nat) : List (Nat × Nat × Version) :=
  let base := (s.ctx ctx).hlog * 4096
  s.hbm.filterMap (fun p =>
    if base ≤ p.1 ∧ p.1 < base + 2 ^ 26 ∧ (p.1 - base) % 64 = 7 ∧ p.2.getLsbD 7 then
      let a := p.1 - 7
      some ((a - base) / 2 ^ 15, (a - base) % 2 ^ 15 / 64,
        { ctx := ctx, id := bitsOf (s.hbmRead (a + 8) 8) 39 32, va := bitsOf (s.hbmRead a 8) 55 5,
          sector := Map.get (s.ctx ctx).logAt ((a - base) / 64) (bitsOf (s.hbmRead a 8) 55 5),
          mask := BitVec.ofNat 32 (bitsOf (s.hbmRead (a + 8) 8) 31 0), bytes := Memory.readBytes s.hbm (a + 16) 32 })
    else none)

/-- The record of a segment that holds the version of a sector under an id. -/
def State.logFind (s : State) (ctx slice id sector : Nat) : Option (Nat × Version) :=
  ((s.logRecords ctx).find? (fun r => r.1 == slice && r.2.2.id == id && r.2.2.sector == sector)).map (·.2)

/-- The first record of a segment that is not in use.
DESIGN CHOICE, unsafe: assumption 93. -/
def State.logFree (s : State) (ctx slice : Nat) : Option Nat :=
  let used := ((s.logRecords ctx).filter (fun r => r.1 == slice)).map (fun r => r.2.1)
  firstFrom (fun i => !used.contains i) 0 512

/-- A version's record is written to the log: it names the sector by its global address. The frame behind it is kept beside the record.
DEDUCED, unsafe: assumption 69. -/
def State.logWrite (s : State) (slice i : Nat) (v : Version) : State :=
  let a := s.logBase v.ctx slice + 64 * i
  let c := s.ctx v.ctx
  (s.setCtx v.ctx { c with logAt := Map.set c.logAt (512 * slice + i) v.sector }).hbmWrite a
    (leBytes 8 (2 ^ 63 + v.va * 32) ++ leBytes 8 (v.id * 2 ^ 32 + v.mask.toNat) ++ v.bytes ++ leBytes 16 0)

/-- A record is cleared: the segment has room again, and an episode of HLOG_FULL is over (R161). -/
def State.logClear (s : State) (ctx slice i : Nat) : State :=
  let c := s.ctx ctx
  let s1 := (s.setCtx ctx { c with logAt := Map.erase c.logAt (512 * slice + i) }).hbmWrite (s.logBase ctx slice + 64 * i) (leBytes 64 0)
  let x := s1.slice slice
  s1.setSlice slice { x with fullFor := x.fullFor.filter (fun n => n != ctx) }

/-- The version of a sector under an id: in the directory, or in the log. -/
def State.version (s : State) (ctx id sector : Nat) : Option Version :=
  let n := homeSlice (32 * sector)
  match (s.slice n).dir.find? (fun v => v.ctx == ctx && v.id == id && v.sector == sector) with
  | some v => some v
  | none =>
    (s.logFind ctx n id sector).map (·.2)

/-- The byte that the versions of a chain of ids give (R157); none: committed memory decides.
DEDUCED, unsafe: assumption 66. -/
def versionByte (s : State) (ctx pa : Nat) : List Nat → Option Byte
  | [] => none
  | id :: rest =>
    match s.version ctx id (pa / 32) with
    | some v => if v.mask.getLsbD (pa % 32) then some (v.bytes.getD (pa % 32) 0) else versionByte s ctx pa rest
    | none => versionByte s ctx pa rest

/-- A byte of module HBM as a thread of ctx under g sees it (R157). -/
def State.visByte (s : State) (ctx g pa : Nat) : Byte :=
  (versionByte s ctx pa ((s.ctx ctx).chain g)).getD (Memory.readByte s.hbm pa)

/-- n bytes as a thread sees them. -/
def State.visBytes (s : State) (ctx g pa : Nat) : Nat → List Byte
  | 0 => []
  | n + 1 => s.visByte ctx g pa :: s.visBytes ctx g (pa + 1) n

/-- The Tempo balances of a context in a cluster: they start at the budgets of its descriptor (R111). -/
def State.balances (s : State) (cluster ctx : Nat) : Balances :=
  let b := (s.ctx ctx).budgets
  Map.get (s.cluster cluster).bal ctx { issue := b.issue, chuck := b.chuck, link := b.link, car := b.car, evict := b.evict }

def State.setBalances (s : State) (cluster ctx : Nat) (b : Balances) : State :=
  let c := s.cluster cluster
  s.setCluster cluster { c with bal := Map.set c.bal ctx b }

/-- A class may start an operation: its budget is unlimited, or its balance is above zero (R111, R112). -/
def tempoOpen (budget : Nat) (balance : Int) : Bool := budget == 0xFFFF || decide (0 < balance)

/-- Debits a context's eviction balance in a cluster (Table 7-3, R160); 0xFFFF is unlimited. -/
def State.debitEvict (s : State) (cluster ctx n : Nat) : State :=
  if (s.ctx ctx).budgets.evict = 0xFFFF then s
  else
    let b := s.balances cluster ctx
    s.setBalances cluster ctx { b with evict := b.evict - n }

/-- The eviction class of a context may start an operation in a cluster (R112). -/
def State.evictOpen (s : State) (cluster ctx : Nat) : Bool := tempoOpen (s.ctx ctx).budgets.evict (s.balances cluster ctx).evict

/-- A wait at a home slice is over. -/
def State.stuckOver (s : State) (w : Stuck) : Bool :=
  match w with
  | .full ctx n => !(s.slice n).fullFor.contains ctx
  | .budget ctx cluster => s.evictOpen cluster ctx

/-- The least recently used entry of a slice's directory moves to its context's log (R160), for whose writing the eviction balance must be
open (R112). With a reason when the log segment of that context is full (R161), or its balance is used up. -/
def State.moveOldest (s : State) (n cluster : Nat) : State × Option Stuck :=
  let x := s.slice n
  match x.dir.getLast? with
  | none => (s, none)
  | some v =>
    match s.logFree v.ctx n with
    | none => (s, some (.full v.ctx n))
    | some i =>
      if !s.evictOpen cluster v.ctx then (s, some (.budget v.ctx cluster))
      else (((s.setSlice n { x with dir := x.dir.dropLast }).logWrite n i v).debitEvict cluster v.ctx 1, none)

/-- A slice's directory has room for an entry, or makes it (R160). -/
def State.dirRoom (s : State) (n cluster : Nat) : State × Option Stuck :=
  if (s.slice n).dir.length < 2048 then (s, none) else s.moveOldest n cluster

/-- The version with bytes written over it. -/
def Version.put (v : Version) (off : Nat) : List Byte → Version
  | [] => v
  | b :: r => Version.put { v with mask := v.mask ||| BitVec.ofNat 32 (2 ^ off), bytes := setNth v.bytes off b } (off + 1) r

/-- A write under a live id, within one sector: it becomes, or merges into, a version (R157, R160). A version in the log is read and its
record cleared in one operation of the eviction class, of amount 2. A write that has to wait keeps the room it has made.
DESIGN CHOICE, unsafe: assumption 92. -/
def State.versionWrite (s : State) (cluster ctx id pa va : Nat) (bs : List Byte) : State × Option Stuck :=
  let sector := pa / 32
  let n := homeSlice pa
  let x := s.slice n
  let mine := fun (v : Version) => v.ctx == ctx && v.id == id && v.sector == sector
  match x.dir.find? mine with
  | some v => (s.setSlice n { x with dir := v.put (pa % 32) bs :: x.dir.filter (fun v => !mine v) }, none)
  | none =>
    match s.dirRoom n cluster with
    | (s1, some w) => (s1, some w)
    | (s1, none) =>
      let x1 := s1.slice n
      match s1.logFind ctx n id sector with
      | some (i, v) =>
        if !s1.evictOpen cluster ctx then (s1, some (.budget ctx cluster))
        else (((s1.setSlice n { x1 with dir := v.put (pa % 32) bs :: x1.dir }).logClear ctx n i).debitEvict cluster ctx 2, none)
      | none =>
        let v : Version := { ctx := ctx, id := id, sector := sector, va := va / 32, mask := 0, bytes := List.replicate 32 0 }
        (s1.setSlice n { x1 with dir := v.put (pa % 32) bs :: x1.dir }, none)

/-- The pieces of a byte range that lie in one 32-byte sector each. -/
def sectorPieces : Nat → Nat → List Byte → List (Nat × List Byte)
  | 0, _, _ => []
  | n + 1, pa, bs =>
    match bs with
    | [] => []
    | _ => let k := 32 - pa % 32
           (pa, bs.take k) :: sectorPieces n (pa + (bs.take k).length) (bs.drop k)

/-! ### What a slot sees (R48, R148, R157) -/

/-- A byte that a slot itself left in the gathering buffer under a hypothesis (R48). The committed bytes are the slot's, whichever
context's thread it holds by now (R54). -/
def State.ownByte (s : State) (k tgt rmod ctx id a : Nat) : Option Byte :=
  match (s.core (k / 16)).gather.find? (fun e =>
      e.tgt == tgt && e.rmod == rmod && (id == 0 || e.ctx == ctx) && e.hyp == id && e.block == a / 256 * 256) with
  | none => none
  | some e =>
    match Map.find? e.bytes (a % 256) with
    | some (b, w) => if w % 2 ^ 16 = k then some b else none
    | none => none

/-- The byte of module HBM that a slot sees: for each id from its hypothesis to the root, its own buffered byte, then the version;
then committed memory. -/
def slotByte (s : State) (k ctx pa : Nat) : List Nat → Byte
  | [] => Memory.readByte s.hbm pa
  | id :: rest =>
    match s.ownByte k 0 0 ctx id pa with
    | some b => b
    | none =>
      match (if id = 0 then none else s.version ctx id (pa / 32)) with
      | some v => if v.mask.getLsbD (pa % 32) then v.bytes.getD (pa % 32) 0 else slotByte s k ctx pa rest
      | none => slotByte s k ctx pa rest

/-- n bytes of module HBM as the slot sees them. -/
def State.slotBytes (s : State) (k pa n : Nat) : List Byte :=
  let x := s.slot k
  let ids := (s.ctx x.ctx).chain x.hyp ++ [0]
  (numsFrom pa n).map (fun a => slotByte s k x.ctx a ids)

/-! ### Lookups (R160) -/

/-- What the search of one sector's versions meets under a chain of ids, nearest first: the directory entries it uses, and the number of
log records it reads. It ends with the first version that holds every byte asked for. -/
def State.searched (s : State) (ctx sector : Nat) (mask : BitVec 32) : List Nat → List Nat × Nat
  | [] => ([], 0)
  | id :: rest =>
    let n := homeSlice (32 * sector)
    match (s.slice n).dir.find? (fun v => v.ctx == ctx && v.id == id && v.sector == sector) with
    | some v =>
      if mask &&& ~~~v.mask = 0 then ([id], 0)
      else let r := s.searched ctx sector (mask &&& ~~~v.mask) rest
           (id :: r.1, r.2)
    | none =>
      match s.logFind ctx n id sector with
      | some (_, v) =>
        if mask &&& ~~~v.mask = 0 then ([], 1)
        else let r := s.searched ctx sector (mask &&& ~~~v.mask) rest
             (r.1, r.2 + 1)
      | none => s.searched ctx sector mask rest

/-- The bytes of a range that lie in a sector, as a mask. -/
def sectorMask (pa n sector : Nat) : BitVec 32 :=
  (numsFrom 0 32).foldl (fun m i => if pa ≤ 32 * sector + i ∧ 32 * sector + i < pa + n then m ||| BitVec.ofNat 32 (2 ^ i) else m) 0

/-- The 32-byte sectors that n bytes from pa meet. -/
def sectorsOf (pa n : Nat) : List Nat := if n = 0 then [] else numsFrom (pa / 32) ((pa + n - 1) / 32 - pa / 32 + 1)

/-- The log records that a read of n bytes under g reads (R160): one for each that it finds.
DESIGN CHOICE, unsafe: assumption 92. -/
def State.logReads (s : State) (ctx g pa n : Nat) : Nat :=
  if g = 0 then 0
  else ((sectorsOf pa n).map (fun t => (s.searched ctx t (sectorMask pa n t) ((s.ctx ctx).chain g)).2)).sum

/-- A read of n bytes under g searches the log: it must wait while the eviction balance is not above zero (R112, R160). -/
def State.lookupWaits (s : State) (cluster ctx g pa n : Nat) : Bool :=
  g != 0 && !s.evictOpen cluster ctx && decide (0 < s.logReads ctx g pa n)

/-- The directory entries that a read of n bytes under g uses become the most recently used of their slice (R160). -/
def State.touchDir (s : State) (ctx g pa n : Nat) : State :=
  if g = 0 then s
  else (sectorsOf pa n).foldl (fun s t =>
    let r := s.searched ctx t (sectorMask pa n t) ((s.ctx ctx).chain g)
    let k := homeSlice (32 * t)
    let x := s.slice k
    let used := fun (v : Version) => v.ctx == ctx && v.sector == t && r.1.contains v.id
    if r.1.isEmpty then s else s.setSlice k { x with dir := x.dir.filter used ++ x.dir.filter (fun v => !used v) }) s

/-- Debits the log reads of a search. -/
def State.debitReads (s : State) (cluster ctx n : Nat) : State := if n = 0 then s else s.debitEvict cluster ctx n

/-- A read of n bytes under g has searched the directories and the log: the entries it used become the most recently used of their slice,
and the log records it read are debited (R160). -/
def State.lookedUp (s : State) (cluster ctx g pa n : Nat) : State :=
  (s.touchDir ctx g pa n).debitReads cluster ctx (s.logReads ctx g pa n)

/-! ### Waiter entries (R148) -/

/-- The hypothesis of a spilled thread, from its slot record (Table 20-6a).
DESIGN CHOICE, unsafe: assumption 15. -/
def State.spilledHyp (s : State) (p : Spilled) : Nat := bitsOf (s.hbmRead (p.addr + 8) 8) 47 40

/-- What a waiter entry waits with: context, cluster, hypothesis and threshold. -/
def State.watches (s : State) (w : Watcher) : Option (Nat × Nat × Nat × Nat) :=
  match w with
  | .slot k =>
    let x := s.slot k
    match x.wait with
    | .nwait _ th _ => some (x.ctx, clusterOf (k / 16), x.hyp, th.toNat)
    | _ => none
  | .spilled ctx tid =>
    match Map.find? (s.ctx ctx).spilled tid with
    | some p =>
      match p.rest.wait with
      | .nwait _ th _ => some (ctx, clusterOf p.core, s.spilledHyp p, th.toNat)
      | _ => none
    | none => none

/-- The value of a waited word as its waiter reads it. -/
def State.watched (s : State) (w : Watcher) (ctx hyp pa : Nat) : Nat :=
  leNat (match w with
    | .slot k => s.slotBytes k pa 8
    | .spilled _ _ => s.visBytes ctx hyp pa 8)

/-- One waiter entry of slice n is looked at again: where a write has changed what its wait reads, the word is read, as a load under the
thread's hypothesis (R147): a read of the log is debited, and waits until it may start (R112, R160).
DEDUCED, unsafe: assumption 97. -/
def State.meetEntry (s : State) (n : Nat) (e : WaitEntry) : State :=
  match s.watches e.who with
  | none => s
  | some (ctx, cl, hyp, th) =>
    let v := s.watched e.who ctx hyp e.pa
    if e.met ∨ v = e.seen ∨ s.lookupWaits cl ctx hyp e.pa 8 then s
    else
      let t := s.lookedUp cl ctx hyp e.pa 8
      let x := t.slice n
      t.setSlice n { x with waiters := x.waiters.map (fun f => if f = e then { e with seen := v, met := decide (th ≤ v) } else f) }

/-- R148: the waiter entries of a slice are looked at again; one whose word stands at or above its threshold is met. -/
def State.meetSlice (s : State) (n : Nat) : State := (s.slice n).waiters.foldl (fun t e => t.meetEntry n e) s

/-- R148: every waiter entry is looked at again. -/
def State.meetWaiters (s : State) : State :=
  ((s.slices.filter (fun p => !p.2.waiters.isEmpty)).map (·.1)).foldl (fun t n => t.meetSlice n) s

/-- The waiter entries of a slot or of a spilled thread. -/
def State.waiterOf (s : State) (w : Watcher) : List WaitEntry := s.slices.flatMap (fun p => p.2.waiters.filter (fun e => e.who == w))

/-- Every slice's waiter entries change. -/
def State.mapWaiters (s : State) (f : List WaitEntry → List WaitEntry) : State :=
  { s with slices := s.slices.map (fun p => (p.1, { p.2 with waiters := f p.2.waiters })) }

/-! ### Writes -/

/-- A write is performed at the home slice (R157, R163): committed, a version, or dropped under a dead id; the waiter entries for its
word are looked at again (R148). With a reason when a directory entry cannot be had (R112, R161): of a range of several sectors, the
sectors before that one have been written. -/
def State.perform (s : State) (cluster ctx id pa va : Nat) (bs : List Byte) : State × Option Stuck :=
  match ((s.ctx ctx).hyp id).st with
  | .retired => ((s.hbmWrite pa bs).meetSlice (homeSlice pa), none)
  | .dead => (s, none)
  | .free => (s, none)
  | _ =>
    if id = 0 then ((s.hbmWrite pa bs).meetSlice (homeSlice pa), none)
    else (sectorPieces (bs.length + 1) pa bs).foldl
      (fun r p => match r.2 with
        | some _ => r
        | none =>
          let t := r.1.versionWrite cluster ctx id p.1 (va + (p.1 - pa)) p.2
          (t.1.meetSlice (homeSlice p.1), t.2)) (s, none)

/-! ### Resolved ids (R155, R156) -/

/-- Writes the masked bytes of a version into committed memory (R155 step 2). -/
def Version.commit (v : Version) (s : State) : State :=
  (numsFrom 0 32).foldl (fun t i => if v.mask.getLsbD i then t.hbmWrite (32 * v.sector + i) [v.bytes.getD i 0] else t) s

/-- A version of a resolved id leaves; on a confirm its bytes go to committed memory (R155, R156 step 2). -/
def Version.leave (v : Version) (confirm : Bool) (s : State) : State := if confirm then v.commit s else s

/-- Takes an id's versions out of one slice's directory. -/
def State.resolveSlice (s : State) (ctx id : Nat) (confirm : Bool) (n : Nat) : State :=
  let x := s.slice n
  let mine := fun (v : Version) => v.ctx == ctx && v.id == id
  (x.dir.filter mine).foldl (fun t v => v.leave confirm t) (s.setSlice n { x with dir := x.dir.filter (fun v => !mine v) })

/-- Drops an id's versions from the log, where each record is read and cleared in one operation of the eviction class, of amount 2
(R160); whether none is left: an operation starts only while the balance is above zero (R112).
DESIGN CHOICE, unsafe: assumption 92. -/
def State.dropLog (s : State) (cluster ctx id : Nat) : State × Bool :=
  ((s.logRecords ctx).filter (fun r => r.2.2.id == id)).foldl
    (fun t r => if t.2 && t.1.evictOpen cluster ctx then ((t.1.logClear ctx r.1 r.2.1).debitEvict cluster ctx 2, true) else (t.1, false)) (s, true)

/-- Takes an id's versions out of every directory. -/
def State.resolveDirs (s : State) (ctx id : Nat) (confirm : Bool) : State :=
  (s.slices.map (·.1)).foldl (fun t n => t.resolveSlice ctx id confirm n) s

/-- Drops an id's versions from every directory and from the log; whether none is left. -/
def State.dropVersions (s : State) (cluster ctx id : Nat) : State × Bool :=
  let r := s.dropLog cluster ctx id
  (r.1.resolveDirs ctx id false, r.2)

/-- The records of some ids in a context's log are read and cleared, each in one operation of the eviction class, of amount 2 (R160): debits
what the balance lets start (R112), and notes what has been debited; whether all has. The records stay where they are.
DESIGN CHOICE, unsafe: assumption 92. -/
def State.payRecords (s : State) (cluster ctx : Nat) (ids : List Nat) (paid : List (Nat × Nat × Version)) :
    State × List (Nat × Nat × Version) × Bool :=
  ((s.logRecords ctx).filter (fun r => ids.contains r.2.2.id && !paid.contains r)).foldl
    (fun t r => if t.1.evictOpen cluster ctx then (t.1.debitEvict cluster ctx 2, r :: t.2.1, t.2.2) else (t.1, t.2.1, false)) (s, paid, true)

/-- Takes an id's versions out of the log and out of every directory, the records having been paid for. -/
def State.resolveVersions (s : State) (ctx id : Nat) (confirm : Bool) : State :=
  State.resolveDirs (((s.logRecords ctx).filter (fun r => r.2.2.id == id)).foldl
    (fun t r => r.2.2.leave confirm (t.logClear ctx r.1 r.2.1)) s) ctx id confirm

/-- A page (physical base, log2 size) holds a version of any context, in a directory, in a log, or in the save image that a context will
come back from (R162). -/
def State.pageHasVersion (s : State) (base log : Nat) : Bool :=
  let inPage := fun (v : Version) => decide (base ≤ 32 * v.sector) && decide (32 * v.sector < base + 2 ^ log)
  s.slices.any (fun p => p.2.dir.any inPage)
  || s.images.any (fun i => i.versions.any (fun p => inPage p.2) && s.ctxs.any (fun c => c.2.image == i.stamp))
  || s.ctxs.any (fun c => !c.2.hyps.isEmpty && (s.logRecords c.1).any (fun r => inPage r.2.2))

end Sys2Proof.Machine
end

