-- ==== Sys2Proof/Machine/Ops.lean ====
section
/-! DEFINITION. The shared operations of spindle code: stores on their way to the point of coherence, link egress, messages,
the end of a thread and of a launch, trap records, taking an exception and returning from one (R48, R66, R87, R88, R90, R96,
R123, R327 to R334). -/

namespace Sys2Proof.Machine

/-! ### Link egress (R192, R195) -/

/-- A link operation goes to the egress of its cluster, named by a fresh key. -/
def State.egress (s : State) (cluster ctx : Nat) (p : Packet) (who : LinkWho) : State :=
  let e : Egress := { cluster := cluster, ctx := ctx, key := s.ctl.free, p := p, who := who }
  { s.tookFree with links := { s.links with egress := s.links.egress ++ [e] } }

/-- Answers for what is no longer there are dropped. -/
def State.dropAnswers (s : State) (gone : LinkWho → Bool) : State :=
  let who := fun (w : LinkWho) => if gone w then LinkWho.discard else w
  { s with links := { s.links with reqs := s.links.reqs.map (fun r => { r with who := who r.who })
                                   egress := s.links.egress.map (fun e => { e with who := who e.who }) } }

/-! ### The store-gathering buffer (R48) and the L1 (R46) -/

/-- R46: a performed store updates a line of the writing core that holds the same data, and removes one filled under another
hypothesis, which a miss refills. -/
def l1Store (ls : List L1Line) (ctx hyp pa : Nat) (bs : List Byte) : List L1Line :=
  let hits := fun (l : L1Line) => decide (l.addr < pa + bs.length) && decide (pa < l.addr + 32)
  let put := fun (l : L1Line) => (numsFrom 0 bs.length).foldl
    (fun l i => if l.addr ≤ pa + i then { l with bytes := setNth l.bytes (pa + i - l.addr) (bs.getD i 0) } else l) l
  (ls.filter (fun l => !hits l || (l.ctx == ctx && l.hyp == hyp))).map (fun l => if hits l then put l else l)

/-- The slots whose thread still answers for a buffered byte: its writer, unless that thread has left the slot (R194). -/
def writerSlots (w : Nat) : List Nat := if w < 2 ^ 16 then [w] else []

/-- The contiguous runs of dirty bytes of an entry: offset, bytes, and the slots whose threads answer for them. -/
def dirtyRuns : Map (Byte × Nat) → List (Nat × List Byte × List Nat)
  | [] => []
  | (o, b, w) :: r =>
    match dirtyRuns r with
    | (o', bs, ks) :: rest =>
      if o + 1 = o' then (o, b :: bs, (writerSlots w).filter (fun k => !ks.contains k) ++ ks) :: rest
      else (o, [b], writerSlots w) :: (o', bs, ks) :: rest
    | [] => [(o, [b], writerSlots w)]

/-- The dirty bytes of an entry, in the pieces that lie in one 32-byte sector each: offset and bytes. -/
def GatherEntry.pieces (e : GatherEntry) : List (Nat × List Byte) :=
  (dirtyRuns e.bytes).flatMap (fun run => sectorPieces (run.2.1.length + 1) run.1 run.2.1)

/-- A piece of an entry for module HBM is performed, and updates the core's lines; or it stays dirty, with the reason for which it waits.
Once one waits, those after it do. -/
def performPiece (core : Nat) (e : GatherEntry) (r : State × Map (Byte × Nat) × Option Stuck) (p : Nat × List Byte) :
    State × Map (Byte × Nat) × Option Stuck :=
  match r.2.2 with
  | some _ => r
  | none =>
    match r.1.perform (clusterOf core) e.ctx e.hyp (e.block + p.1) (e.va + p.1) p.2 with
    | (t, some w) => (t, r.2.1, some w)
    | (t, none) =>
      let x := t.core core
      (t.setCore core { x with l1 := l1Store x.l1 e.ctx e.hyp (e.block + p.1) p.2 },
       r.2.1.filter (fun b => !(decide (p.1 ≤ b.1) && decide (b.1 < p.1 + p.2.length))), none)

/-- The entry's bytes are performed at their point of coherence; with the bytes that stay dirty, and why, where a version directory has
no room for them (R112, R161).
DESIGN CHOICE, unsafe: assumption 7. DEDUCED, unsafe: assumption 62. -/
def State.performEntry (s : State) (core : Nat) (e : GatherEntry) : State × Map (Byte × Nat) × Option Stuck :=
  match e.tgt with
  | 0 => e.pieces.foldl (performPiece core e) (s, e.bytes, none)
  | 1 => ({ s with host := (dirtyRuns e.bytes).foldl (fun m run => Memory.writeBytes m (e.block + run.1) run.2.1) s.host }, [], none)
  | _ =>
    ((dirtyRuns e.bytes).foldl (fun t run =>
      t.egress (clusterOf core) e.ctx
        { op := 1, dst := e.rmod, src := t.links.lmod, len := run.2.1.length - 1, addr := e.block + run.1, pay := run.2.1 }
        (.posted run.2.2 e.ctx)) s, [], none)

/-- The ring index at which the next trap record goes (R332): the first not in use from the header's next index on.
DESIGN CHOICE, unsafe: assumption 61. -/
def State.ringIndex (s : State) (ctx : Nat) : Option Nat :=
  let base := (s.ctx ctx).saveb * 4096
  let next := s.hbmRead (base + 0x18) 8 % 256
  firstFrom (fun i => !(s.hbmRead (base + 0x1000 + 64 * (i % 256) + 32) 8).testBit 63) next 256

/-- The words of a trap record (Table 20-4). -/
def TrapRec.words (r : TrapRec) : List Nat :=
  [r.cause.toNat, r.pc % 2 ^ 56, r.faddr.toNat, r.resume % 2 ^ 56,
   2 ^ 63 + r.tid * 2 ^ 28 + r.ctx * 2 ^ 22 + b2n r.lathe * 2 ^ 12 + r.src, r.aux.toNat, r.cycle, 0]

/-- A register that holds a value. -/
def fullReg (v : Word64) : Reg := { st := .full, v := v }

/-- A message leaves for a core (R96): it enters the mesh behind the earlier messages, under a fresh name. -/
def State.post (s : State) (dst : Nat) (m : Msg) : State :=
  { s.tookFree with mesh := s.mesh ++ [(dst, { m with stamp := s.ctl.free })] }

/-- Writes a trap record at an index and sends the message of R333; with CVEC 0 no message is sent. -/
def State.writeRecord (s : State) (r : TrapRec) (i : Nat) : State :=
  let c := s.ctx r.ctx
  let base := c.saveb * 4096
  let a := base + 0x1000 + 64 * (i % 256)
  let count := bitsOf (s.hbmRead (base + 0x18) 8) 16 8
  let s1 := (s.hbmWrite a (r.words.flatMap (leBytes 8))).hbmWriteNat (base + 0x18) 8 ((i + 1) % 256 + (count + 1) * 2 ^ 8)
  let cvec := s.hbmRead (base + 0x10) 8 % 2 ^ 56
  if cvec = 0 then s1
  else s1.post c.trapc
    { kind := .send, pc := cvec, ctx := r.ctx,
      g := fullReg (BitVec.ofNat 64 a) :: fullReg r.cause :: List.replicate 6 (fullReg 0),
      trap := some (r.cause, r.faddr, BitVec.ofNat 64 a), src := .device r.ctx }

/-- The place of a record among those that one cycle writes (R333): Lathes by die, cluster and number, then forwarded slots by die and
cluster, then the traps of no core.
DEDUCED, unsafe: assumption 40. -/
def TrapRec.rank (r : TrapRec) : Nat :=
  if r.lathe then r.src else if r.cause.getLsbD 29 then 4096 + r.src / 16 else 2 * 4096

/-- The record keeps the order of its cycle: none of a later place has been written in it (R333). -/
def State.inTurn (s : State) (r : TrapRec) : Bool :=
  match (s.ctx r.ctx).recAt with
  | some (t, n) => t != s.cycle || decide (n ≤ r.rank)
  | none => true

/-- A record is written at an index, and the cycle's order moves on. -/
def State.putRecord (s : State) (r : TrapRec) (i : Nat) : State :=
  State.writeRecord (s.setCtx r.ctx { s.ctx r.ctx with recAt := some (s.cycle, r.rank) }) r i

/-- A trap of the context as a whole, or of a drained Lathe or forwarded slot: its record is written, or waits for room (R332), or for
the next cycle when one of a later place has been written in this (R333). -/
def State.record (s : State) (r : TrapRec) (who : Option Waiter) : State × Bool :=
  match s.ringIndex r.ctx, s.inTurn r with
  | some i, true => (s.putRecord r i, true)
  | _, _ => let c := s.ctx r.ctx
            (s.setCtx r.ctx { c with recs := c.recs ++ [(r, who)] }, false)

/-- TCAUSE (Table 20-2). -/
def tcauseWord (cause code status reason slot : Nat) (lathe sdel fwd : Bool) : Word64 :=
  BitVec.ofNat 64 (code * 2 ^ 32 + b2n lathe * 2 ^ 31 + b2n sdel * 2 ^ 30 + b2n fwd * 2 ^ 29 + slot * 2 ^ 24
    + status * 2 ^ 16 + reason * 2 ^ 8 + cause)

/-- LAUNCH_FAULT, HLOG_FULL and FRAME_SHORT: a trap of no core (Table 20-4).
DEDUCED, unsafe: assumption 40. -/
def State.ctxTrap (s : State) (ctx cause reason : Nat) (faddr aux : Word64) : State :=
  (s.record { cause := tcauseWord cause 0 0 reason 0 false false false, pc := 0, faddr := faddr, ctx := ctx, aux := aux,
              cycle := s.cycle } none).1

/-- A write has to wait at its home slice. R161: one that found the log of a context full makes its trap core take HLOG_FULL, once for
the slice's episode. -/
def State.stuckAt (s : State) (w : Stuck) : State :=
  match w with
  | .full ctx slice =>
    let x := s.slice slice
    if x.fullFor.contains ctx then s
    else (s.setSlice slice { x with fullFor := ctx :: x.fullFor }).ctxTrap ctx 33 0 0 (BitVec.ofNat 64 slice)
  | .budget _ _ => s

/-- The entries of a core's buffer that satisfy p drain, oldest first; and why the first of those that could not must wait (R112, R161).
DEDUCED, unsafe: assumption 28. -/
def State.drainThese (s : State) (core : Nat) (p : GatherEntry → Bool) : State × Option Stuck :=
  ((s.core core).gather.filter p).foldl (fun r e =>
    match r.1.performEntry core e with
    | (t, left, some w) => let x := t.core core
                           ((t.setCore core { x with gather := x.gather.map (fun f => if f = e then { e with bytes := left } else f) }).stuckAt w,
                            r.2.or (some w))
    | (t, _, none) => let x := t.core core
                      (t.setCore core { x with gather := x.gather.erase e }, r.2)) (s, none)

/-- Every entry of a core's buffer drains (R48). -/
def State.drainCore (s : State) (core : Nat) : State × Option Stuck := s.drainThese core (fun _ => true)

/-- Entries of every core's buffer that overlap n bytes at a target drain (R51).
DEDUCED, unsafe: assumption 28. -/
def State.drainOver (s : State) (tgt rmod pa n : Nat) : State × Option Stuck :=
  s.cores.foldl (fun r p =>
    let d := r.1.drainThese p.1
      (fun e => e.tgt == tgt && e.rmod == rmod && decide (e.block < pa + n) && decide (pa < e.block + 256))
    (d.1, r.2.or d.2)) (s, none)

/-- Every entry of a context drains, in every core. -/
def State.drainCtx (s : State) (ctx : Nat) : State × Option Stuck :=
  s.cores.foldl (fun r p => let d := r.1.drainThese p.1 (fun e => e.ctx == ctx)
                            (d.1, r.2.or d.2)) (s, none)

/-- A posted remote write that satisfies p has not been acknowledged. -/
def State.postedAny (s : State) (p : List Nat → Nat → Bool) : Bool :=
  let posted := fun (w : LinkWho) => match w with
    | .posted ks c => p ks c
    | _ => false
  s.links.reqs.any (fun r => posted r.who) || s.links.egress.any (fun e => posted e.who)

/-- A posted remote write of a context has not been acknowledged (R66).
DEDUCED, unsafe: assumption 27. -/
def State.unacked (s : State) (ctx : Nat) : Bool := s.postedAny (fun _ c => c == ctx)

/-! ### Checkpoints (R74) -/

/-- R74: a lapse event occurs in a context. A checkpoint lapses, and a `ckpt` in progress records nothing.
DEDUCED, unsafe: assumption 24. -/
def State.lapse (s : State) (ctx : Nat) : State :=
  let c := s.ctx ctx
  match c.st with
  | .checkpointed => s.setCtx ctx { c with lapses := c.lapses + 1, st := .running, live := [] }
  | _ => s.setCtx ctx { c with lapses := c.lapses + 1 }

/-! ### Carriers (R151) -/


/-- Something of the context still carries an id. A request carries it from its push on (R264).
DESIGN CHOICE, unsafe: assumption 15. -/
def State.carried (s : State) (ctx id : Nat) : Bool :=
  let msg := fun (m : Msg) => m.ctx == ctx && m.hyp == id
  let req := fun (r : Request) => r.ctx == ctx && r.hyp == id
  let task := fun (t : TaskRec) => match t.task with
    | .task h _ _ => h == id && ((Map.find? s.launches t.launch).map (·.ctx)) == some ctx
    | .range _ _ => false
  s.slots.any (fun p => p.2.st != .free && p.2.ctx == ctx && p.2.hyp == id)
  || s.mesh.any (fun p => msg p.2)
  || s.cores.any (fun p => p.2.inbox.any msg || p.2.ring.any msg || p.2.meshWait.any msg || p.2.deque.any task
        || p.2.fifo.entries.any req)
  || s.clusters.any (fun p => p.2.xfers.any (fun x => req x.req))
  || (s.ctx ctx).spilled.any (fun p => s.spilledHyp p.2 == id)

/-- The id that a carrier of a resolved id takes: heirs are followed to an id that is neither RETIRED nor DEAD.
DESIGN CHOICE, unsafe: assumption 15. DEDUCED, unsafe: assumption 31. -/
def heirFrom (c : Ctx) : Nat → Nat → Nat
  | 0, _ => 0
  | n + 1, id =>
    match (c.hyp id).st with
    | .retired => heirFrom c n (c.hyp id).heir
    | .dead => heirFrom c n (c.hyp id).heir
    | .free => 0
    | _ => id

/-- The heir of an id.
DESIGN CHOICE, unsafe: assumption 15. -/
def Ctx.heirOf (c : Ctx) (id : Nat) : Nat := heirFrom c 256 (c.hyp id).heir

/-- Table 11-1: a resolved id that nothing carries becomes FREE. Its own heir has passed to the ids whose heir it was (R156).
DESIGN CHOICE, unsafe: assumption 15. DEDUCED, unsafe: assumption 31. -/
def State.reapHyps (s : State) (ctx : Nat) : State :=
  let c := s.ctx ctx
  let reap := fun (p : Nat × Hyp) =>
    if (p.2.st == .retired || p.2.st == .dead) && !s.carried ctx p.1 then (p.1, ({} : Hyp))
    else (p.1, { p.2 with heir := heirFrom c 256 p.2.heir })
  if c.hyps.isEmpty then s else s.setCtx ctx { c with hyps := c.hyps.map reap }

/-! ### Constant windows (R86, R87) -/

/-- The identity words of a window (Table 5-3). -/
def identityWords (l : Launch) (cluster n : Nat) (lathe : Bool) : List Nat :=
  [cluster / 64 * 2 ^ 30 + cluster % 64 * 2 ^ 24 + n * 2 ^ 20 + b2n lathe * 2 ^ 19 + l.ctx,
   l.r.nf * 2 ^ 8 + l.r.prio * 2 ^ 4 + l.q,
   l.seq % 2 ^ 32, l.seq / 2 ^ 32, l.r.rec_.toNat % 2 ^ 32, l.r.rec_.toNat / 2 ^ 32, l.r.kimg % 2 ^ 32, l.r.kimg / 2 ^ 32]

/-- Writes the constant window of core n, or of Lathe n, of a cluster. -/
def State.fillWindow (s : State) (l : Launch) (cluster n : Nat) (lathe : Bool) : State :=
  let a := spAddr cluster (0x400 * (if lathe then 16 + n else n))
  let words := (l.consts.take 248).map BitVec.toNat
  let all := words ++ List.replicate (248 - words.length) 0 ++ identityWords l cluster n lathe
  (s.spWrite a false (all.flatMap (leBytes 4))).viewJoin a 1024

/-- A slot of a launch, or a task record of it, is on the core (R87). -/
def State.launchOnCore (s : State) (id core : Nat) : Bool :=
  (numsFrom (16 * core) 16).any (fun k => (s.slot k).st != .free && (s.slot k).launch == some id)
  || (s.core core).deque.any (fun t => t.launch == id)

/-- A record has been pushed: the idle cores of the die probe again (R106), and a core whose pass is not finished begins it anew.
DESIGN CHOICE, unsafe: assumption 87. -/
def State.wakeThieves (s : State) (die : Nat) : State :=
  { s with cores := s.cores.map (fun p => if p.1 / 1024 = die then (p.1, { p.2 with idleDone := false, probe := 0 }) else p) }

/-- A part of a launch is pushed at the top of a core's deque (R102); the launch owns the core's window, which is filled. -/
def State.pushPart (s : State) (id : Nat) (l : Launch) (h : HeldPart) : State :=
  let x := s.core h.core
  let t : TaskRec := { launch := id, task := .range h.first h.count, tcls := l.r.tcls }
  let s1 := s.setCore h.core { x with winOwner := some id, deque := t :: x.deque }
  (s1.fillWindow l (clusterOf h.core) (h.core % 16) false).wakeThieves (h.core / 1024)

/-- Dispatch's held part of a launch for a core, pushed when the window is free (R102).
DEDUCED, unsafe: assumption 50. -/
def State.pushHeld (s : State) (core : Nat) : State :=
  match List.find? (fun p : Nat × Launch => p.2.held.any (fun h => h.core == core)) s.launches with
  | none => s
  | some (id, l) =>
    match l.held.find? (fun h => h.core == core) with
    | none => s
    | some h =>
      let left := { l with held := l.held.filter (fun h => h.core != core) }
      State.pushPart { s with launches := Map.set s.launches id left } id l h

/-- R87: the window becomes free when nothing of its owning launch is on the core; a held part then takes it. -/
def State.refreshWindow (s : State) (core : Nat) : State :=
  match (s.core core).winOwner with
  | none => s.pushHeld core
  | some id =>
    if s.launchOnCore id core then s
    else State.pushHeld (s.setCore core { s.core core with winOwner := none }) core

/-! ### The end of a launch (R88, R90) -/

/-- A slot has not exited, or a task remains: slots, spilled threads, threads on their way, task records, held parts.
DEDUCED, unsafe: assumption 16. -/
def State.launchBusy (s : State) (id : Nat) : Bool :=
  let mig := fun (m : Msg) => m.launch == some id && (m.kind == .migrate || m.kind == .restore)
  s.slots.any (fun p => p.2.st != .free && p.2.launch == some id)
  || s.cores.any (fun p => p.2.deque.any (fun t => t.launch == id) || p.2.inbox.any mig || p.2.ring.any mig || p.2.meshWait.any mig)
  || s.mesh.any (fun p => mig p.2)
  || s.ctxs.any (fun p => p.2.spilled.any (fun q => q.2.launch == some id))
  || ((Map.find? s.launches id).map (fun l => !l.held.isEmpty)).getD false

/-- Table 5-4: the passage of a launch to PARKED, or to DONE by way of its done word (R90), which is incremented before the step ends
unless it has to wait. A context in TEARDOWN discards its launches (R78).
DEDUCED, unsafe: assumption 16. -/
def State.launchCheck (s : State) (id : Nat) : State :=
  match Map.find? s.launches id with
  | none => s
  | some l =>
    if s.launchBusy id || l.st == .loaded || (s.ctx l.ctx).st == .teardown then s
    else if l.lathes.isEmpty then { s with launches := Map.set s.launches id { l with st := .completing } }
    else if l.st == .launched then { s with launches := Map.set s.launches id { l with st := .parked } }
    else s

/-! ### The end of a thread (R118, R123) -/

/-- R114: an identity is released. -/
def State.releaseTid (s : State) (ctx tid : Nat) : State :=
  let c := s.ctx ctx
  s.setCtx ctx { c with tids := c.tids.filter (fun t => t != tid) }

/-- What follows when a thread has left its slot: windows, launches and hypothesis ids that waited for it. -/
def State.afterThread (s : State) (core ctx : Nat) (launch : Option Nat) : State :=
  let s1 := (s.reapHyps ctx).refreshWindow core
  match launch with
  | none => s1
  | some id => s1.launchCheck id

/-- A thread leaves a slot. The bytes it buffered stay the slot's (R48, R54); a refusal of its remote writes has no one to report to (R194). -/
def State.forgetWriter (s : State) (k : Nat) : State :=
  let who := fun (w : LinkWho) => match w with
    | .posted ks c => LinkWho.posted (ks.filter (fun x => x != k)) c
    | w => w
  let c := s.core (k / 16)
  let anon := fun (e : GatherEntry) => { e with bytes := e.bytes.map (fun p => if p.2.2 = k then (p.1, (p.2.1, k + 2 ^ 16)) else p) }
  let s1 := if c.gather.isEmpty then s else s.setCore (k / 16) { c with gather := c.gather.map anon }
  { s1 with links := { s1.links with reqs := s1.links.reqs.map (fun r => { r with who := who r.who })
                                     egress := s1.links.egress.map (fun e => { e with who := who e.who }) } }

/-- The slot that parks for a resolve (R154). -/
def HypReq.resolver : HypReq → Option Nat
  | .hnew _ _ _ => none
  | .hconf k _ => some k
  | .href k _ => some k

/-- A slot that another slot's `yield` counts is waited for no longer (R256).
DEDUCED, unsafe: assumption 53. -/
def State.uncount (s : State) (k : Nat) : State :=
  { s with slots := s.slots.map (fun p => if p.1 / 16 = k / 16 && p.2.yieldFor.contains k then
      (p.1, { p.2 with yieldFor := p.2.yieldFor.filter (fun n => n != k) }) else p) }

/-- A slot leaves whatever it waits for: notification words, launch and handle queues, page walks, room for a trap record. -/
def State.leaveWaits (s : State) (k : Nat) : State :=
  let who := fun (w : LinkWho) => if w = .poll k then LinkWho.discard else w
  { s.uncount k with
    links := { s.links with reqs := s.links.reqs.map (fun r => { r with who := who r.who })
                            egress := s.links.egress.map (fun e => { e with who := who e.who }) }
    slices := s.slices.map (fun p => (p.1, { p.2 with waiters := p.2.waiters.filter (fun x => x.who != .slot k) }))
    ctxs := s.ctxs.map (fun p => (p.1, { p.2 with
      queues := p.2.queues.map (fun q => (q.1, { q.2 with parked := q.2.parked.filter (fun x => x.1 != k) }))
      recs := p.2.recs.filter (fun r => r.2 != some (.slot k))
      unitQ := p.2.unitQ.filter (fun r => decide (r.resolver ≠ some k)) }))
    cores := s.cores.map (fun p => (p.1, { p.2 with fifo := { p.2.fifo with waiting := p.2.fifo.waiting.filter (fun x => x.1 != k) } }))
    lathes := s.lathes.map (fun p => (p.1, { p.2 with hqWait := p.2.hqWait.filter (fun w => w != .slot k) }))
    dies := s.dies.map (fun p => (p.1, { p.2 with
      walks := p.2.walks.map (fun w => { w with reqs := w.reqs.filter (fun r => r.who != .slot k && r.who != .poll k) })
      failed := p.2.failed.filter (fun f => f.2.1.who != .poll k) })) }

/-- An unpin is applied: none where the context holds no pin (NOT_PINNED). -/
def State.pinDrop (s : State) (ctx key : Nat) : Option State :=
  let c := s.ctx ctx
  match Map.find? c.pins key with
  | none => none
  | some n => some (s.setCtx ctx { c with pins := if n ≤ 1 then Map.erase c.pins key else Map.set c.pins key (n - 1) })

/-- The pins that a context holds for a list of pages are given up, one each. -/
def State.unpinAll (s : State) (ctx : Nat) (ks : List Nat) : State := ks.foldl (fun t k => (t.pinDrop ctx k).getD t) s

/-- The `pfxl` of slot k that waits gives up the pins it has taken (R186). -/
def State.releasePfx (s : State) (k : Nat) : State :=
  let x := s.slot k
  match x.pfx with
  | none => s
  | some r => State.unpinAll (s.setSlot k { x with pfx := none }) x.ctx r.pinned

/-- The slot becomes FREE: registers zero and EMPTY, identity released (R118, R123). -/
def State.freeSlot (s : State) (k : Nat) : State :=
  let x := s.slot k
  (((((s.forgetWriter k).leaveWaits k).setSlot k {}).releaseTid x.ctx x.tid)).afterThread (k / 16) x.ctx x.launch

/-- R123: the thread ends; its slot becomes FREE once no fill of its registers is outstanding. -/
def State.endThread (s : State) (k : Nat) : State :=
  let x := s.slot k
  if x.fills.isEmpty then s.freeSlot k
  else s.setSlot k { x with leaving := true, st := .active, wait := .none, awaiting := [] }

/-! ### Taking an exception (R330) and returning from one (R273) -/

/-- The detail of a trap (R327, R328). -/
structure TrapInfo where
  cause : Nat
  code : Nat := 0
  status : Nat := 0
  reason : Nat := 0
  faddr : Word64 := 0
  deriving DecidableEq, Repr

/-- The context has a lasting fault (R73): issue stops, state is kept. -/
def State.faultContext (s : State) (ctx : Nat) : State :=
  let c := s.ctx ctx
  match c.st with
  | .running | .checkpointed => s.setCtx ctx { c with st := .faulted, live := [] }
  | _ => s

/-- A spindle trap that is not handled in its slot: a forwarded record to the trap core, and the slot ends as by `exit`; with
the ring full the slot waits. -/
def State.forwardTrap (s : State) (k : Nat) (t : TrapInfo) (cause : Nat) (aux : Word64) (pc tpc : Nat) : State :=
  let x := s.slot k
  let r : TrapRec := { cause := tcauseWord cause t.code t.status t.reason 0 false false true, pc := pc, faddr := t.faddr,
                       tid := x.tid, ctx := x.ctx, src := k / 16, aux := aux, cycle := s.cycle }
  match s.record r (some (.slot k)) with
  | (s1, true) => s1.endThread k
  | (s1, false) =>
    let late : LateTrap := { cause := t.cause, code := t.code, status := t.status, reason := t.reason, faddr := t.faddr, pc := pc, tpc := tpc }
    s1.setSlot k { s1.slot k with st := .parkedWait, wait := .record r late, awaiting := [], parkedAt := s.cycle }

/-- The PC that an address from memory, a message or a register installs. "A PC is always a multiple of 4" (R200): software may
leave other low bits in TVEC, TPC, the orphan vector, a message or a record, and they are dropped.
DESIGN CHOICE, unsafe: assumption 95. -/
def codePc (a : Nat) : BitVec 56 := BitVec.ofNat 56 (a / 4 * 4)

/-- R330: slot k takes a trap raised by the instruction at pc; tpc is where its handler resumes. -/
def State.trapSlot (s : State) (k : Nat) (t : TrapInfo) (pc tpc : Nat) : State :=
  let x := s.slot k
  let c := s.ctx x.ctx
  if x.hnd then
    if k / 16 = c.trapc then s.faultContext x.ctx
    else s.forwardTrap k t 35 (BitVec.ofNat 64 t.cause) pc tpc
  else
    let tvec := s.hbmRead (c.saveb * 4096 + 8) 8
    if tvec = 0 then s.forwardTrap k t t.cause 0 pc tpc
    else
      let cause := tcauseWord t.cause t.code t.status t.reason 0 false false false
      s.setSlot k { x with hnd := true, pc := codePc tvec, st := .active, wait := .none, awaiting := [],
                           tcause := cause, taddr := t.faddr, trec := 0, tpc := BitVec.ofNat 64 tpc }

/-- The issuing slot takes a precise trap at its own instruction. -/
def State.trap (s : State) (t : TrapInfo) : State := s.trapSlot s.key t s.cur.pc.toNat s.cur.pc.toNat

/-- The causes of Table 20-1 that carry no detail. -/
def causeTrap (c : Nat) : TrapInfo := { cause := c }

def tILLEGAL : TrapInfo := causeTrap 1
def tEMPTY_READ : TrapInfo := causeTrap 2
def tALIGN_FAULT (a : Word64) : TrapInfo := { cause := 3, faddr := a }
def tFORMAT_FAULT : TrapInfo := causeTrap 6
def tCONST_MISS : TrapInfo := causeTrap 7

/-- Of the records that wait and may be written in this cycle, the first by place, and of those the one that has waited longest (R333). -/
def State.nextRecord (s : State) (ctx : Nat) : Option (TrapRec × Option Waiter) :=
  ((s.ctx ctx).recs.filter (fun p => s.inTurn p.1)).foldl (fun best p => match best with
    | none => some p
    | some b => if p.1.rank < b.1.rank then some p else some b) none

/-- Records that waited are written, while there is room, in the order of R333; a slot whose record is written then ends. -/
def State.flushRecords (s : State) (ctx : Nat) : Nat → State
  | 0 => s
  | n + 1 =>
    let c := s.ctx ctx
    match s.nextRecord ctx with
    | none => s
    | some (r, who) =>
      match s.ringIndex ctx with
      | none => s
      | some i =>
        let s1 := State.putRecord (s.setCtx ctx { c with recs := c.recs.erase (r, who) }) r i
        let s2 := match who with
          | some (.slot k) => s1.endThread k
          | some (.lathe l) =>
            let x := s1.lathe l
            s1.setLathe l { x with trap := x.trap.map (fun (t : LTrap) => { t with written := true }) }
          | _ => s1
        s2.flushRecords ctx n

/-- R332: the record at an address is retired. -/
def State.retireRecord (s : State) (ctx a : Nat) : State :=
  let base := (s.ctx ctx).saveb * 4096
  let w4 := s.hbmRead (a + 32) 8
  if w4.testBit 63 then
    let h := s.hbmRead (base + 0x18) 8
    let s1 := (s.hbmWriteNat (a + 32) 8 (w4 - 2 ^ 63)).hbmWriteNat (base + 0x18) 8 (h % 256 + (bitsOf h 16 8 - 1) * 2 ^ 8)
    s1.flushRecords ctx 256
  else s

/-- R273: the return from a handler entered in the trapping slot resumes at TPC; from one started at the trap core, it frees
the slot and retires the record. -/
def State.returnFromTrap (s : State) : State :=
  let x := s.cur
  if x.trec = 0 then
    s.setCur { x with pc := codePc x.tpc.toNat, hnd := false, tcause := 0, tpc := 0, taddr := 0 }
  else if x.recRetired then s.endThread s.key
  else (s.endThread s.key).retireRecord x.ctx x.trec.toNat

end Sys2Proof.Machine
end

