-- ==== Sys2Proof/WellFormed.lean ====
section
/-! DEFINITION. The limits that the spec sets on the operand fields of an instruction (R201, R202, Tables 14-2, 14-6 to 14-9).
A spindle instruction that breaks one traps ILLEGAL when it issues (R203); a bundle that holds one traps ILLEGAL at decode (R210). -/

namespace Sys2Proof

/-- R201: scope 6 and 7, and order plain with a scope other than 0, are illegal. -/
abbrev orderPlain (scope : BitVec 3) (order : BitVec 2) : Prop := scope ≤ 5#3 ∧ (order = 0#2 → scope = 0#3)

/-- Table 14-8: the integer lane types. -/
abbrev isIntTy (ty : BitVec 3) : Prop := ty = 0#3 ∨ ty = 1#3 ∨ ty = 3#3 ∨ ty = 4#3

/-- Table 14-8: the floating lane types. -/
abbrev isFloatTy (ty : BitVec 3) : Prop := ty = 2#3 ∨ ty = 5#3 ∨ ty = 6#3

/-- Table 14-8: the 32-bit lane types. -/
abbrev isWideTy (ty : BitVec 3) : Prop := ty ≤ 2#3

/-- R293, R202: the register pair of a width-changing `vcvt` is even and does not overlap the other register. -/
abbrev cvtGroups (vd va : BitVec 5) (ty st : BitVec 3) : Prop :=
  (isWideTy ty ∧ ¬ isWideTy st → vd.toNat % 2 = 0 ∧ va ≠ vd ∧ va ≠ vd + 1#5) ∧
  (¬ isWideTy ty ∧ isWideTy st → va.toNat % 2 = 0 ∧ vd ≠ va ∧ vd ≠ va + 1#5)

/-- The limits on the operand fields of each instruction, as a decision.
DEDUCED, unsafe: assumption 23. -/
def wellFormed (i : Instr) : Bool :=
  match i with
  | .registerWrite _ _ => true
  | .load _ _ => true
  | .save _ _ => true
  | .force _ _ => true
  | .restore _ _ => true
  | .teardown _ _ => true
  | .loadingChecks => true
  | .saveWritten => true
  | .restoreComplete => true
  | .teardownComplete => true
  | .lqpost _ _ _ => true
  | .tlbinvPage _ _ => true
  | .tlbinvContext _ => true
  | .tlbinvDone => true
  | .pevict _ _ => true
  | .fpush _ _ => true
  | .portEnable _ => true
  | .portDisable _ => true
  | .spillcmdSpill _ _ _ => true
  | .spillcmdReadmit _ _ => true
  | .attreqStart _ => true
  | .attestationDone => true
  | .mkpost _ => true
  | .markJobComplete _ => true
  | .moduleReset => true
  | .firmwareVerify => true
  | .throttleInterval _ _ => true
  | .thermalTrip _ => true
  | .idleEntry => true
  | .idleExit => true
  | .launchHeadRead => true
  | .dependencePoll => true
  | .dispatch => true
  | .tempoPeriod => true
  | .chime => true
  | .messageArrive => true
  | .ringAccept => true
  | .messageAdmit => true
  | .dequePop => true
  | .stealProbe => true
  | .registerFill => true
  | .directWrite => true
  | .slotWake => true
  | .spill => true
  | .spillReadmit => true
  | .orphanRestart => true
  | .l1LineExpiry => true
  | .storeBufferDrain => true
  | .nwaitWake => true
  | .nwaitPoll => true
  | .hypothesisTakeUp => true
  | .tollComplete => true
  | .walkComplete => true
  | .pageFillDone => true
  | .evictionCommit => true
  | .writebackDone => true
  | .chuckAccept => true
  | .clapperRow => true
  | .transferComplete => true
  | .flitReceive _ _ _ => true
  | .trainingDone _ _ _ => true
  | .trainingTimeout => true
  | .linkEgress => true
  | .linkWrite => true
  | .linkRead => true
  | .linkAmo => true
  | .linkNotify => true
  | .tilewr => true
  | .resp => true
  | .linkRequestTimeout => true
  | .hostLinkTrain _ => true
  | .hostMemAccess _ _ _ _ => true
  | .latheTrap => true
  | .errorRetry _ _ => true
  | .gangIssue => true
  | .tretAfterRead => true
  | .addi _ _ _ _ => true
  | .andi _ _ _ _ => true
  | .ori _ _ _ _ => true
  | .xori _ _ _ _ => true
  | .shli _ _ _ imm => decide (imm ≤ 63#13)
  | .shri _ _ _ imm => decide (imm ≤ 63#13)
  | .srai _ _ _ imm => decide (imm ≤ 63#13)
  | .cmpeqi _ _ _ _ => true
  | .cmplti _ _ _ _ => true
  | .movi _ _ => true
  | .movhi _ _ _ _ => true
  | .bfx _ _ _ wm1 pos => decide (pos.toNat + (wm1.toNat + 1) ≤ 64)
  | .bfi _ _ _ wm1 pos => decide (pos.toNat + (wm1.toNat + 1) ≤ 64)
  | .fpack _ _ _ _ => true
  | .fpick _ _ _ _ => true
  | .add _ _ _ _ _ => true
  | .sub _ _ _ _ _ => true
  | .mul _ _ _ _ _ => true
  | .mulh _ _ _ _ _ => true
  | .mulhz _ _ _ _ _ => true
  | .div _ _ _ _ _ => true
  | .divz _ _ _ _ _ => true
  | .rem _ _ _ _ _ => true
  | .remz _ _ _ _ _ => true
  | .and _ _ _ _ _ => true
  | .or _ _ _ _ _ => true
  | .xor _ _ _ _ _ => true
  | .shl _ _ _ _ _ => true
  | .shr _ _ _ _ _ => true
  | .sra _ _ _ _ _ => true
  | .rotl _ _ _ _ _ => true
  | .min _ _ _ _ _ => true
  | .max _ _ _ _ _ => true
  | .minz _ _ _ _ _ => true
  | .maxz _ _ _ _ _ => true
  | .cmpeq _ _ _ _ _ => true
  | .cmplt _ _ _ _ _ => true
  | .cmpltz _ _ _ _ _ => true
  | .sel _ _ _ _ _ => true
  | .clz _ _ _ => true
  | .ctz _ _ _ => true
  | .popc _ _ _ => true
  | .fadd _ _ _ _ _ => true
  | .fsub _ _ _ _ _ => true
  | .fmul _ _ _ _ _ => true
  | .fmadd _ _ _ _ _ => true
  | .fdiv _ _ _ _ _ => true
  | .fmin _ _ _ _ _ => true
  | .fmax _ _ _ _ _ => true
  | .fcmp _ _ _ _ _ => true
  | .cvtfi _ _ _ => true
  | .cvtif _ _ _ => true
  | .cvtffN _ _ fmt _ => decide (9#5 ≤ fmt ∧ fmt ≤ 13#5)
  | .cvtffW _ _ fmt _ => decide (9#5 ≤ fmt ∧ fmt ≤ 13#5)
  | .padd _ _ _ _ _ => true
  | .pidx _ _ _ _ _ => true
  | .ptag _ _ _ _ _ => true
  | .pstrip _ _ _ => true
  | .movk _ _ => true
  | .movkd _ index => decide (index.toNat % 2 = 0)
  | .getk _ k => decide (k ≤ 63#13)
  | .setk _ _ k => decide (k ≤ 63#13)
  | .trap code => decide (code ≤ 4095#13)
  | .brk _ => true
  | .ldB _ _ _ scope order _ => decide (orderPlain scope order ∧ (order = 0#2 ∨ order = 1#2))
  | .ldH _ _ _ scope order _ => decide (orderPlain scope order ∧ (order = 0#2 ∨ order = 1#2))
  | .ldW _ _ _ scope order _ => decide (orderPlain scope order ∧ (order = 0#2 ∨ order = 1#2))
  | .ldD _ _ _ scope order _ => decide (orderPlain scope order ∧ (order = 0#2 ∨ order = 1#2))
  | .ldzB _ _ _ scope order _ => decide (orderPlain scope order ∧ (order = 0#2 ∨ order = 1#2))
  | .ldzH _ _ _ scope order _ => decide (orderPlain scope order ∧ (order = 0#2 ∨ order = 1#2))
  | .ldzW _ _ _ scope order _ => decide (orderPlain scope order ∧ (order = 0#2 ∨ order = 1#2))
  | .stB _ _ _ scope order _ => decide (orderPlain scope order ∧ (order = 0#2 ∨ order = 2#2))
  | .stH _ _ _ scope order _ => decide (orderPlain scope order ∧ (order = 0#2 ∨ order = 2#2))
  | .stW _ _ _ scope order _ => decide (orderPlain scope order ∧ (order = 0#2 ∨ order = 2#2))
  | .stD _ _ _ scope order _ => decide (orderPlain scope order ∧ (order = 0#2 ∨ order = 2#2))
  | .ldt _ _ _ scope order _ => decide (orderPlain scope order ∧ (order = 0#2 ∨ order = 1#2))
  | .stt _ _ _ scope order _ => decide (orderPlain scope order ∧ (order = 0#2 ∨ order = 2#2))
  | .pf _ _ _ => true
  | .fence scope order => decide (scope ≤ 5#3 ∧ order ≠ 0#2)
  | .amoSwap _ _ _ scope order _ => decide (orderPlain scope order)
  | .amoAdd _ _ _ scope order _ => decide (orderPlain scope order)
  | .amoAnd _ _ _ scope order _ => decide (orderPlain scope order)
  | .amoOr _ _ _ scope order _ => decide (orderPlain scope order)
  | .amoXor _ _ _ scope order _ => decide (orderPlain scope order)
  | .amoMin _ _ _ scope order _ => decide (orderPlain scope order)
  | .amoMax _ _ _ scope order _ => decide (orderPlain scope order)
  | .amoMinz _ _ _ scope order _ => decide (orderPlain scope order)
  | .amoMaxz _ _ _ scope order _ => decide (orderPlain scope order)
  | .amoFadd _ _ _ scope order _ => decide (orderPlain scope order)
  | .amoAddBatch _ _ _ scope order _ => decide (orderPlain scope order)
  | .cas d base _ scope order _ => decide (orderPlain scope order ∧ d.toNat % 2 = 0 ∧ base ≠ d ∧ base ≠ d + 1#5)
  | .notify _ _ _ scope _ => decide (scope ≤ 5#3)
  | .nwait _ _ _ scope _ => decide (scope ≤ 5#3)
  | .beq _ _ _ _ _ => true
  | .bne _ _ _ _ _ => true
  | .blt _ _ _ _ _ => true
  | .bge _ _ _ _ _ => true
  | .bltz _ _ _ => true
  | .bgez _ _ _ => true
  | .b _ => true
  | .bl _ => true
  | .jr _ _ => true
  | .jlr _ _ _ => true
  | .purge _ => true
  | .rfill _ _ _ _ => true
  | .send _ _ => true
  | .migrate _ _ => true
  | .mhome _ _ _ => true
  | .setmig _ _ => true
  | .spawn _ _ _ => true
  | .exit => true
  | .yield => true
  | .dqpush d a _ => decide (7#5 ≤ d ∧ 7#5 ≤ a)
  | .dqpop d => decide (7#5 ≤ d)
  | .launch _ _ _ _ => true
  | .topen _ _ _ _ _ => true
  | .tst _ _ _ _ _ => true
  | .tsr _ _ _ _ _ => true
  | .tsq _ _ _ _ _ => true
  | .seal _ _ _ => true
  | .tret _ _ => true
  | .tinfo _ _ _ _ _ => true
  | .qpost _ _ _ _ => true
  | .qeos _ _ => true
  | .cpush a _ => decide (a.toNat % 4 = 0)
  | .cstat _ _ _ => true
  | .pbinv _ _ => true
  | .barArrive _ _ _ => true
  | .barWait _ _ _ _ => true
  | .barRed _ _ _ _ _ => true
  | .hnew _ _ _ => true
  | .hset _ _ => true
  | .hconf _ _ => true
  | .href _ _ => true
  | .gwalk _ _ _ _ _ => true
  | .hashb _ _ _ => true
  | .pfxl _ _ _ => true
  | .pin _ _ _ => true
  | .unpin _ _ _ => true
  | .nop => true
  | .eret => true
  | .ckpt _ _ => true
  | .lresume _ _ => true
  | .vjoin _ _ _ _ => true
  | .snop => true
  | .sadd _ _ i imm => decide (i = 0#1 → imm.extractLsb' 0 13 = 0#13)
  | .ssub _ _ i imm => decide (i = 0#1 → imm.extractLsb' 0 13 = 0#13)
  | .smul _ _ i imm => decide (i = 0#1 → imm.extractLsb' 0 13 = 0#13)
  | .sand _ _ i imm => decide (i = 0#1 → imm.extractLsb' 0 13 = 0#13)
  | .sor _ _ i imm => decide (i = 0#1 → imm.extractLsb' 0 13 = 0#13)
  | .sxor _ _ i imm => decide (i = 0#1 → imm.extractLsb' 0 13 = 0#13)
  | .sshl _ _ i imm => decide ((i = 0#1 → imm.extractLsb' 0 13 = 0#13) ∧ (i = 1#1 → imm ≤ 31#17))
  | .sshr _ _ i imm => decide ((i = 0#1 → imm.extractLsb' 0 13 = 0#13) ∧ (i = 1#1 → imm ≤ 31#17))
  | .scmp _ _ _ cc => decide (cc ≤ 5#3)
  | .smovi _ _ => true
  | .smovk _ _ => true
  | .sb cond qa _ => decide (cond ≠ 3#2 ∧ (cond = 0#2 → qa = 0#4))
  | .loop i qa imm => decide ((i = 0#1 → imm = 0#16) ∧ (i = 1#1 → qa = 0#4))
  | .qwait _ _ => true
  | .qpostLathe _ _ => true
  | .qeosLathe _ => true
  | .tretLathe _ => true
  | .getkLathe _ _ => true
  | .setkLathe _ _ => true
  | .trapsw _ => true
  | .vnop => true
  | .vadd _ _ _ ty => decide (ty ≠ 7#3)
  | .vsub _ _ _ ty => decide (ty ≠ 7#3)
  | .vmul _ _ _ ty => decide (ty ≠ 7#3)
  | .vfma _ _ _ ty => decide (ty ≠ 7#3)
  | .vmax _ _ _ ty => decide (ty ≠ 7#3)
  | .vmin _ _ _ ty => decide (ty ≠ 7#3)
  | .vand _ _ _ ty => decide (isIntTy ty)
  | .vor _ _ _ ty => decide (isIntTy ty)
  | .vxor _ _ _ ty => decide (isIntTy ty)
  | .vshl _ _ _ ty => decide (isIntTy ty)
  | .vshr _ _ _ ty => decide (isIntTy ty)
  | .vcvt vd va ty st => decide (ty ≠ 7#3 ∧ st ≠ 7#3 ∧ ty ≠ st ∧ cvtGroups vd va ty st)
  | .vbcast _ _ ty => decide (ty ≠ 7#3)
  | .vred _ _ ty op => decide (ty ≠ 7#3 ∧ op ≠ 3#2)
  | .vsel _ _ _ ty => decide (ty ≠ 7#3)
  | .vcmp _ _ _ ty cc => decide (ty ≠ 7#3 ∧ cc ≤ 5#3 ∧ (isFloatTy ty → cc ≤ 3#3))
  | .vmac16 _ _ _ ty => decide (ty = 3#3 ∨ ty = 4#3)
  | .vrow _ _ ty part row => decide ((ty = 0#3 ∨ ty = 2#3) ∧ (part ≠ 0#2 → row = 0#6))
  | .vwacc _ _ ty part row => decide ((ty = 0#3 ∨ ty = 2#3) ∧ (part ≠ 0#2 → row = 0#6))
  | .fnop => true
  | .fexp2 _ _ => true
  | .flog2 _ _ => true
  | .frcp _ _ => true
  | .frsqrt _ _ => true
  | .fsin _ _ => true
  | .fcos _ _ => true
  | .smx ao asc _ _ => decide (ao ≠ asc)
  | .smxm ad ae => decide (ad ≠ ae)
  | .smxf _ => true
  | .smxz _ => true
  | .mnop => true
  | .mma _ _ _ _ _ _ _ => true
  | .mmat _ _ _ _ _ _ _ => true
  | .xchg _ _ => true
  | .enop => true
  | .escl _ => true
  | .tnop => true
  | .tld _ _ _ _ => true
  | .tstLathe _ _ _ _ _ => true
  | .tmask _ _ _ => true
  | .tout _ _ _ => true
  | .toutC _ _ _ => true
  | .tseal _ => true
  | .unassignedOpcode _ => true
  | .illegalBundle _ => true
  | .fetchFault => true

/-- The limits on the operand fields of an instruction hold. -/
abbrev WellFormed (i : Instr) : Prop := wellFormed i = true

end Sys2Proof
end

