-- ==== Sys2Proof/Machine/Operands.lean ====
section
/-! DEFINITION. The operands of spindle instructions: how a slot reads its registers, parks or traps on them, and writes its
result (R115, R116, R201 to R203, R221). -/

namespace Sys2Proof.Machine

/-- The value of a register of the issuing slot. -/
def State.gr (s : State) (r : BitVec 5) : Word64 := s.cur.g r.toNat

/-- A source register with its trap-if-empty bit; 0 where the read has none (R201). -/
abbrev Src := BitVec 5 × BitVec 1

/-- A source that is EMPTY and whose trap-if-empty bit is set (R115).
DEDUCED, unsafe: assumption 12. -/
def emptyTrap (x : Slot) (srcs : List Src) : Bool :=
  srcs.any (fun p => decide (p.2 = 1#1) && decide ((x.reg p.1.toNat).st = .empty))

/-- The registers an instruction must wait for: sources that are not FULL, destinations that are PENDING (R115, R116).
DEDUCED, unsafe: assumption 12. -/
def awaited (x : Slot) (srcs : List Src) (dsts : List (BitVec 5)) : List Nat :=
  ((srcs.map (fun p => p.1.toNat)).filter (fun r => decide ((x.reg r).st ≠ .full)))
  ++ ((dsts.map BitVec.toNat).filter (fun r => decide ((x.reg r).st = .pending)))

/-- The issuing slot parks on registers; its PC stays (R115, Table 8-3). -/
def State.park (s : State) (rs : List Nat) : State :=
  s.setCur { s.cur with st := .parkedReg, awaiting := rs, wait := .none, parkedAt := s.cycle }

/-- The issuing slot parks in PARKED_WAIT; its PC stays until its wait is met (Table 8-3). -/
def State.parkWait (s : State) (w : Wait) : State :=
  s.setCur { s.cur with st := .parkedWait, awaiting := [], wait := w, parkedAt := s.cycle }

/-- R115, R116, R203, R221: what every spindle instruction does before its own effect. A word that breaks a limit of its fields
traps ILLEGAL; an EMPTY source with its bit set traps EMPTY_READ; a register that is not ready parks the slot.
DEDUCED, unsafe: assumption 12. -/
def operands (i : Instr) (srcs : List Src) (dsts : List (BitVec 5)) (s : State) (f : State → State) : Out :=
  if wellFormed i then
    if emptyTrap s.cur srcs then .next (s.trap tEMPTY_READ)
    else match awaited s.cur srcs dsts with
      | [] => .next (f s)
      | rs => .next (s.park rs)
  else .next (s.trap tILLEGAL)

/-- The result is written FULL, with the dependency time of its sources (R47), and the slot goes on. -/
def State.result (s : State) (d : BitVec 5) (srcs : List (BitVec 5)) (v : Word64) : State :=
  s.setCur (s.cur.fillReg d.toNat v (s.cur.depOf (srcs.map BitVec.toNat))).advance

/-- A long-latency instruction sets its destination PENDING; the fill sets it FULL when the result arrives (R116).
DESIGN CHOICE, unsafe: assumption 7. -/
def State.pend (s : State) (d : BitVec 5) (f : Fill) : State :=
  let x := s.cur.pendReg d.toNat
  s.setCur { x with fills := x.fills ++ [f] }.advance

/-- The slot goes on without a result. -/
def State.skip (s : State) : State := s.setCur s.cur.advance

/-- Two sources, one result. -/
def binary (i : Instr) (d a b : BitVec 5) (ta tb : BitVec 1) (f : Word64 → Word64 → Word64) (s : State) : Out :=
  operands i [(a, ta), (b, tb)] [d] s (fun s => s.result d [a, b] (f (s.gr a) (s.gr b)))

/-- One source, one result. -/
def unary (i : Instr) (d a : BitVec 5) (ta : BitVec 1) (f : Word64 → Word64) (s : State) : Out :=
  operands i [(a, ta)] [d] s (fun s => s.result d [a] (f (s.gr a)))

/-- Two sources and d, one result. -/
def ternary (i : Instr) (d a b : BitVec 5) (ta tb : BitVec 1) (f : Word64 → Word64 → Word64 → Word64) (s : State) : Out :=
  operands i [(a, ta), (b, tb), (d, 0#1)] [d] s (fun s => s.result d [a, b, d] (f (s.gr d) (s.gr a) (s.gr b)))

/-- Two sources, a result that arrives later, within a number of cycles (R116, R221). -/
def binaryLate (i : Instr) (d a b : BitVec 5) (ta tb : BitVec 1) (within : Nat) (f : Word64 → Word64 → Word64) (s : State) : Out :=
  operands i [(a, ta), (b, tb)] [d] s (fun s =>
    s.pend d { reg := d.toNat, v := f (s.gr a) (s.gr b), dep := s.cur.depOf [a.toNat, b.toNat], due := some (s.cycle + within) })

end Sys2Proof.Machine
end

