-- ==== Sys2Proof/Machine/Integer.lean ====
section
/-! DEFINITION. Spindle integer, immediate, constant-window and bit-field instructions (R223 to R233). -/

namespace Sys2Proof.Machine

/-! ### Immediate forms (R225, R226) -/

/-- sext13. -/
def sext13 (imm : BitVec 13) : Word64 := imm.signExtend 64

def execAddi (d a : BitVec 5) (ta : BitVec 1) (imm : BitVec 13) (s : State) : Out :=
  unary (.addi d a ta imm) d a ta (fun x => x + sext13 imm) s
def execAndi (d a : BitVec 5) (ta : BitVec 1) (imm : BitVec 13) (s : State) : Out :=
  unary (.andi d a ta imm) d a ta (fun x => x &&& sext13 imm) s
def execOri (d a : BitVec 5) (ta : BitVec 1) (imm : BitVec 13) (s : State) : Out :=
  unary (.ori d a ta imm) d a ta (fun x => x ||| sext13 imm) s
def execXori (d a : BitVec 5) (ta : BitVec 1) (imm : BitVec 13) (s : State) : Out :=
  unary (.xori d a ta imm) d a ta (fun x => x ^^^ sext13 imm) s
def execShli (d a : BitVec 5) (ta : BitVec 1) (imm : BitVec 13) (s : State) : Out :=
  unary (.shli d a ta imm) d a ta (fun x => x <<< imm.toNat) s
def execShri (d a : BitVec 5) (ta : BitVec 1) (imm : BitVec 13) (s : State) : Out :=
  unary (.shri d a ta imm) d a ta (fun x => x >>> imm.toNat) s
def execSrai (d a : BitVec 5) (ta : BitVec 1) (imm : BitVec 13) (s : State) : Out :=
  unary (.srai d a ta imm) d a ta (fun x => x.sshiftRight imm.toNat) s
def execCmpeqi (d a : BitVec 5) (ta : BitVec 1) (imm : BitVec 13) (s : State) : Out :=
  unary (.cmpeqi d a ta imm) d a ta (fun x => boolWord (x == sext13 imm)) s
def execCmplti (d a : BitVec 5) (ta : BitVec 1) (imm : BitVec 13) (s : State) : Out :=
  unary (.cmplti d a ta imm) d a ta (fun x => boolWord (x.slt (sext13 imm))) s
def execMovi (d : BitVec 5) (imm : BitVec 13) (s : State) : Out :=
  operands (.movi d imm) [] [d] s (fun s => s.result d [] (sext13 imm))
def execMovhi (d a : BitVec 5) (ta : BitVec 1) (imm : BitVec 13) (s : State) : Out :=
  unary (.movhi d a ta imm) d a ta (fun x => (x <<< 13) ||| imm.zeroExtend 64) s

/-! ### Integer group (R223, R224, Tables 15-2 and 15-3) -/

/-- The signed quotient, truncated towards zero; all ones for a divisor of 0 (Table 15-3). -/
def divSigned (x y : Word64) : Word64 := if y = 0 then -1 else BitVec.ofInt 64 (x.toInt.tdiv y.toInt)
/-- The unsigned quotient; all ones for a divisor of 0. -/
def divUnsigned (x y : Word64) : Word64 := if y = 0 then -1 else x / y
/-- The signed remainder, with the sign of A; A for a divisor of 0. -/
def remSigned (x y : Word64) : Word64 := if y = 0 then x else BitVec.ofInt 64 (x.toInt.tmod y.toInt)
/-- The unsigned remainder; A for a divisor of 0. -/
def remUnsigned (x y : Word64) : Word64 := if y = 0 then x else x % y

/-- The number of leading zero bits of x among its low n bits. -/
def clzFrom (x : Nat) : Nat → Nat
  | 0 => 0
  | n + 1 => if x.testBit n then 0 else 1 + clzFrom x n
/-- The number of trailing zero bits of x, from bit i on, n bits to look at. -/
def ctzFrom (x : Nat) (i : Nat) : Nat → Nat
  | 0 => 0
  | n + 1 => if x.testBit i then 0 else 1 + ctzFrom x (i + 1) n
/-- The number of one bits among the low n bits of x. -/
def popcFrom (x : Nat) : Nat → Nat
  | 0 => 0
  | n + 1 => b2n (x.testBit n) + popcFrom x n

def execAdd (d a b : BitVec 5) (ta tb : BitVec 1) (s : State) : Out :=
  binary (.add d a b ta tb) d a b ta tb (fun x y => x + y) s
def execSub (d a b : BitVec 5) (ta tb : BitVec 1) (s : State) : Out :=
  binary (.sub d a b ta tb) d a b ta tb (fun x y => x - y) s
def execMul (d a b : BitVec 5) (ta tb : BitVec 1) (s : State) : Out :=
  binary (.mul d a b ta tb) d a b ta tb (fun x y => x * y) s
def execMulh (d a b : BitVec 5) (ta tb : BitVec 1) (s : State) : Out :=
  binary (.mulh d a b ta tb) d a b ta tb (fun x y => BitVec.ofInt 64 ((x.toInt * y.toInt) / 2 ^ 64)) s
def execMulhz (d a b : BitVec 5) (ta tb : BitVec 1) (s : State) : Out :=
  binary (.mulhz d a b ta tb) d a b ta tb (fun x y => BitVec.ofNat 64 (x.toNat * y.toNat / 2 ^ 64)) s
def execDiv (d a b : BitVec 5) (ta tb : BitVec 1) (s : State) : Out :=
  binaryLate (.div d a b ta tb) d a b ta tb 34 divSigned s
def execDivz (d a b : BitVec 5) (ta tb : BitVec 1) (s : State) : Out :=
  binaryLate (.divz d a b ta tb) d a b ta tb 34 divUnsigned s
def execRem (d a b : BitVec 5) (ta tb : BitVec 1) (s : State) : Out :=
  binaryLate (.rem d a b ta tb) d a b ta tb 34 remSigned s
def execRemz (d a b : BitVec 5) (ta tb : BitVec 1) (s : State) : Out :=
  binaryLate (.remz d a b ta tb) d a b ta tb 34 remUnsigned s
def execAnd (d a b : BitVec 5) (ta tb : BitVec 1) (s : State) : Out :=
  binary (.and d a b ta tb) d a b ta tb (fun x y => x &&& y) s
def execOr (d a b : BitVec 5) (ta tb : BitVec 1) (s : State) : Out :=
  binary (.or d a b ta tb) d a b ta tb (fun x y => x ||| y) s
def execXor (d a b : BitVec 5) (ta tb : BitVec 1) (s : State) : Out :=
  binary (.xor d a b ta tb) d a b ta tb (fun x y => x ^^^ y) s
def execShl (d a b : BitVec 5) (ta tb : BitVec 1) (s : State) : Out :=
  binary (.shl d a b ta tb) d a b ta tb (fun x y => x <<< (y.toNat % 64)) s
def execShr (d a b : BitVec 5) (ta tb : BitVec 1) (s : State) : Out :=
  binary (.shr d a b ta tb) d a b ta tb (fun x y => x >>> (y.toNat % 64)) s
def execSra (d a b : BitVec 5) (ta tb : BitVec 1) (s : State) : Out :=
  binary (.sra d a b ta tb) d a b ta tb (fun x y => x.sshiftRight (y.toNat % 64)) s
def execRotl (d a b : BitVec 5) (ta tb : BitVec 1) (s : State) : Out :=
  binary (.rotl d a b ta tb) d a b ta tb (fun x y => x.rotateLeft (y.toNat % 64)) s
def execMin (d a b : BitVec 5) (ta tb : BitVec 1) (s : State) : Out :=
  binary (.min d a b ta tb) d a b ta tb (fun x y => if x.slt y then x else y) s
def execMax (d a b : BitVec 5) (ta tb : BitVec 1) (s : State) : Out :=
  binary (.max d a b ta tb) d a b ta tb (fun x y => if x.slt y then y else x) s
def execMinz (d a b : BitVec 5) (ta tb : BitVec 1) (s : State) : Out :=
  binary (.minz d a b ta tb) d a b ta tb (fun x y => if x.ult y then x else y) s
def execMaxz (d a b : BitVec 5) (ta tb : BitVec 1) (s : State) : Out :=
  binary (.maxz d a b ta tb) d a b ta tb (fun x y => if x.ult y then y else x) s
def execCmpeq (d a b : BitVec 5) (ta tb : BitVec 1) (s : State) : Out :=
  binary (.cmpeq d a b ta tb) d a b ta tb (fun x y => boolWord (x == y)) s
def execCmplt (d a b : BitVec 5) (ta tb : BitVec 1) (s : State) : Out :=
  binary (.cmplt d a b ta tb) d a b ta tb (fun x y => boolWord (x.slt y)) s
def execCmpltz (d a b : BitVec 5) (ta tb : BitVec 1) (s : State) : Out :=
  binary (.cmpltz d a b ta tb) d a b ta tb (fun x y => boolWord (x.ult y)) s
/-- `sel` reads d as its condition. -/
def execSel (d a b : BitVec 5) (ta tb : BitVec 1) (s : State) : Out :=
  ternary (.sel d a b ta tb) d a b ta tb (fun z x y => if z ≠ 0 then x else y) s
def execClz (d a : BitVec 5) (ta : BitVec 1) (s : State) : Out :=
  unary (.clz d a ta) d a ta (fun x => BitVec.ofNat 64 (clzFrom x.toNat 64)) s
def execCtz (d a : BitVec 5) (ta : BitVec 1) (s : State) : Out :=
  unary (.ctz d a ta) d a ta (fun x => BitVec.ofNat 64 (ctzFrom x.toNat 0 64)) s
def execPopc (d a : BitVec 5) (ta : BitVec 1) (s : State) : Out :=
  unary (.popc d a ta) d a ta (fun x => BitVec.ofNat 64 (popcFrom x.toNat 64)) s

/-! ### The constant window (R227 to R229) -/

/-- Word i of the constant window of the issuing core. -/
def State.windowWord (s : State) (i : Nat) : Nat :=
  leNat (s.spBytes (spAddr (clusterOf s.coreNo) (0x400 * (s.coreNo % 16) + 4 * i)) 4)

/-- R228: the window is owned by the thread's own launch. -/
def State.ownsWindow (s : State) : Bool :=
  match (s.core s.coreNo).winOwner, s.cur.launch with
  | some o, some l => o == l
  | _, _ => false

/-- A Lathe of the cluster reads a sealed tile in this cycle (R11). -/
def State.tilesRead (s : State) (cl : Nat) : Bool :=
  s.lathes.any (fun p => p.1 / 4 == cl && p.2.reads.any (fun r => decide (s.cycle < r.2)))

/-- The word of a window read reaches d: at once, or later where the read loses its bank to a read of a sealed tile; whether it does is a
free choice (R229).
DESIGN CHOICE, safe: assumption 79. -/
def State.windowRead (s : State) (d : BitVec 5) (v : Word64) : State :=
  if s.tilesRead (clusterOf s.coreNo) then
    if Config.freeNat s.ctl.free % 2 = 0 then s.tookFree.result d [] v
    else s.tookFree.pend d { reg := d.toNat, v := v, dep := s.cur.depOf [] }
  else s.result d [] v

def execMovk (d : BitVec 5) (index : BitVec 8) (s : State) : Out :=
  operands (.movk d index) [] [d] s (fun s =>
    if s.ownsWindow then s.windowRead d ((BitVec.ofNat 32 (s.windowWord index.toNat)).signExtend 64) else s.trap tCONST_MISS)
def execMovkd (d : BitVec 5) (index : BitVec 8) (s : State) : Out :=
  operands (.movkd d index) [] [d] s (fun s =>
    if s.ownsWindow then
      s.windowRead d (BitVec.ofNat 64 (s.windowWord (index.toNat + 1) * 2 ^ 32 + s.windowWord index.toNat))
    else s.trap tCONST_MISS)

/-! ### Bit fields (R230) -/

/-- The mask of a field. -/
def fieldMask (pos width : Nat) : Word64 := BitVec.ofNat 64 ((2 ^ width - 1) * 2 ^ pos)

def execBfx (d a : BitVec 5) (ta : BitVec 1) (wm1 pos : BitVec 6) (s : State) : Out :=
  unary (.bfx d a ta wm1 pos) d a ta (fun x => (x &&& fieldMask pos.toNat (wm1.toNat + 1)) >>> pos.toNat) s
/-- `bfi` reads d as its insertion target. -/
def execBfi (d a : BitVec 5) (ta : BitVec 1) (wm1 pos : BitVec 6) (s : State) : Out :=
  operands (.bfi d a ta wm1 pos) [(a, ta), (d, 0#1)] [d] s (fun s =>
    let m := fieldMask pos.toNat (wm1.toNat + 1)
    s.result d [a, d] ((s.gr d &&& ~~~m) ||| ((s.gr a <<< pos.toNat) &&& m)))

/-! ### The field-layout table (R231 to R233, Table 15-5) -/

/-- A field descriptor is malformed. -/
def descBad (e : Nat) : Bool := e.testBit 15 && (decide (64 < bitsOf e 13 8 + (bitsOf e 7 4 + 1)) || bitsOf e 3 0 != 0)

/-- Descriptor k of an entry. -/
def descOf (v k : Nat) : Nat := bitsOf v (16 * k + 15) (16 * k)

/-- `fpick` of descriptor k. -/
def pickLane (v x k : Nat) : Nat :=
  let e := descOf v k
  let w := bitsOf e 7 4 + 1
  let f := (x >>> bitsOf e 13 8) % 2 ^ w
  if e.testBit 15 then (if e.testBit 14 then wrapInt 16 (sextInt w f) else f) * 2 ^ (16 * k) else 0

/-- `fpack` of descriptor k into r. -/
def packLane (v x r k : Nat) : Nat :=
  let e := descOf v k
  let w := bitsOf e 7 4 + 1
  let pos := bitsOf e 13 8
  if e.testBit 15 then setBits r (pos + w - 1) pos (bitsOf x (16 * k + 15) (16 * k)) else r

/-- The checks of both: the entry's tag (CONST_MISS), then its descriptors (ILLEGAL). -/
def fieldLayout (i : Instr) (d a : BitVec 5) (ta : BitVec 1) (entry : BitVec 5) (f : Nat → Nat → Nat) (s : State) : Out :=
  operands i [(a, ta)] [d] s (fun s =>
    let e := Map.get (s.core s.coreNo).flt entry.toNat {}
    if e.tag ≠ some s.cur.ctx then s.trap tCONST_MISS
    else if [0, 1, 2, 3].any (fun k => descBad (descOf e.v.toNat k)) then s.trap tILLEGAL
    else s.result d [a] (BitVec.ofNat 64 (f e.v.toNat (s.gr a).toNat)))

def execFpick (d a : BitVec 5) (ta : BitVec 1) (entry : BitVec 5) (s : State) : Out :=
  fieldLayout (.fpick d a ta entry) d a ta entry
    (fun v x => pickLane v x 0 + pickLane v x 1 + pickLane v x 2 + pickLane v x 3) s
def execFpack (d a : BitVec 5) (ta : BitVec 1) (entry : BitVec 5) (s : State) : Out :=
  fieldLayout (.fpack d a ta entry) d a ta entry (fun v x => [0, 1, 2, 3].foldl (packLane v x) 0) s

end Sys2Proof.Machine
end

