-- ==== Sys2Proof/Machine/Scalar64.lean ====
section
/-! DEFINITION. Spindle pointer arithmetic (R25 to R28, R234), FP64 arithmetic and conversions (R235 to R237), and control flow
(R238 to R241). -/

namespace Sys2Proof.Machine

/-! ### Fat pointers (Tables 2-3 and 2-4) -/

def ptrFmt (p : Word64) : Nat := bitsOf p.toNat 63 59
def ptrBlog (p : Word64) : Nat := bitsOf p.toNat 58 56
def ptrVa (p : Word64) : Nat := p.toNat % 2 ^ 56

/-- Table 2-4: the element size of a format code, WF8 scaled as 1. -/
def elemSize (fmt : Nat) : Nat :=
  match fmt with
  | 3 => 2 | 4 => 2 | 5 => 4 | 6 => 4 | 7 => 8 | 8 => 8 | 9 => 4 | 10 => 2 | 11 => 2
  | _ => 1

/-- R27: the pointer's format fields fault when they are used; a typed spindle access also faults on WF8. -/
def formatBad (p : Word64) (typed : Bool) : Bool :=
  decide (15 ≤ ptrFmt p) || (ptrFmt p == 14 && (decide (4 ≤ ptrBlog p) || typed)) || (ptrFmt p != 14 && ptrBlog p != 0)

/-- A pointer with its va replaced modulo 2^56 (R28). -/
def withVa (p : Word64) (va : Nat) : Word64 := BitVec.ofNat 64 (p.toNat / 2 ^ 56 * 2 ^ 56 + va % 2 ^ 56)

def execPadd (d a b : BitVec 5) (ta tb : BitVec 1) (s : State) : Out :=
  binary (.padd d a b ta tb) d a b ta tb (fun p x => withVa p (p.toNat + x.toNat)) s
def execPidx (d a b : BitVec 5) (ta tb : BitVec 1) (s : State) : Out :=
  operands (.pidx d a b ta tb) [(a, ta), (b, tb)] [d] s (fun s =>
    let p := s.gr a
    if formatBad p false then s.trap tFORMAT_FAULT
    else s.result d [a, b] (withVa p (p.toNat + (s.gr b).toNat * elemSize (ptrFmt p))))
def execPtag (d a b : BitVec 5) (ta tb : BitVec 1) (s : State) : Out :=
  binary (.ptag d a b ta tb) d a b ta tb (fun p x => BitVec.ofNat 64 (x.toNat % 2 ^ 8 * 2 ^ 56 + ptrVa p)) s
def execPstrip (d a : BitVec 5) (ta : BitVec 1) (s : State) : Out :=
  unary (.pstrip d a ta) d a ta (fun p => BitVec.ofNat 64 (ptrVa p)) s

/-! ### FP64 (R235 to R237) -/

def word (n : Nat) : Word64 := BitVec.ofNat 64 n

def execFadd (d a b : BitVec 5) (ta tb : BitVec 1) (s : State) : Out :=
  binary (.fadd d a b ta tb) d a b ta tb (fun x y => word (faddCode fp64 x.toNat y.toNat)) s
def execFsub (d a b : BitVec 5) (ta tb : BitVec 1) (s : State) : Out :=
  binary (.fsub d a b ta tb) d a b ta tb (fun x y => word (fsubCode fp64 x.toNat y.toNat)) s
def execFmul (d a b : BitVec 5) (ta tb : BitVec 1) (s : State) : Out :=
  binary (.fmul d a b ta tb) d a b ta tb (fun x y => word (fmulCode fp64 x.toNat y.toNat)) s
/-- `fmadd` reads d as its addend. -/
def execFmadd (d a b : BitVec 5) (ta tb : BitVec 1) (s : State) : Out :=
  ternary (.fmadd d a b ta tb) d a b ta tb (fun z x y => word (fmaCode fp64 x.toNat y.toNat z.toNat)) s
def execFdiv (d a b : BitVec 5) (ta tb : BitVec 1) (s : State) : Out :=
  binaryLate (.fdiv d a b ta tb) d a b ta tb 26 (fun x y => word (divTo fp64 (toFV fp64 x.toNat) (toFV fp64 y.toNat))) s
def execFmin (d a b : BitVec 5) (ta tb : BitVec 1) (s : State) : Out :=
  binary (.fmin d a b ta tb) d a b ta tb (fun x y => word (fminCode fp64 x.toNat y.toNat)) s
def execFmax (d a b : BitVec 5) (ta tb : BitVec 1) (s : State) : Out :=
  binary (.fmax d a b ta tb) d a b ta tb (fun x y => word (fmaxCode fp64 x.toNat y.toNat)) s
def execFcmp (d a b : BitVec 5) (ta tb : BitVec 1) (s : State) : Out :=
  binary (.fcmp d a b ta tb) d a b ta tb (fun x y => word (fcmpResult x.toNat y.toNat)) s
def execCvtfi (d a : BitVec 5) (ta : BitVec 1) (s : State) : Out :=
  unary (.cvtfi d a ta) d a ta (fun x => BitVec.ofInt 64 (fvToInt (-2 ^ 63) (2 ^ 63 - 1) (toFV fp64 x.toNat))) s
def execCvtif (d a : BitVec 5) (ta : BitVec 1) (s : State) : Out :=
  unary (.cvtif d a ta) d a ta (fun x => word (ofFV fp64 (intToFV x.toInt))) s
def execCvtffN (d a fmt : BitVec 5) (ta : BitVec 1) (s : State) : Out :=
  unary (.cvtffN d a fmt ta) d a ta (fun x => word (fcvtCode fp64 (fmtOfCode fmt.toNat) x.toNat)) s
def execCvtffW (d a fmt : BitVec 5) (ta : BitVec 1) (s : State) : Out :=
  unary (.cvtffW d a fmt ta) d a ta (fun x =>
    let f := fmtOfCode fmt.toNat
    word (fcvtCode f fp64 (x.toNat % 2 ^ f.width))) s

/-! ### Control (R238 to R241) -/

/-- R238: the branch is taken to PC + 4·disp, or not taken. -/
def State.branchTo (s : State) (taken : Bool) (disp : BitVec 56) : State :=
  if taken then s.setCur { s.cur with pc := s.cur.pc + 4 * disp } else s.skip

/-- A conditional branch on two registers. -/
def branch2 (i : Instr) (a b : BitVec 5) (ta tb : BitVec 1) (disp : BitVec 12) (f : Word64 → Word64 → Bool) (s : State) : Out :=
  operands i [(a, ta), (b, tb)] [] s (fun s => s.branchTo (f (s.gr a) (s.gr b)) (disp.signExtend 56))

/-- A conditional branch on the sign of one register. -/
def branch1 (i : Instr) (a : BitVec 5) (ta : BitVec 1) (disp : BitVec 12) (f : Word64 → Bool) (s : State) : Out :=
  operands i [(a, ta)] [] s (fun s => s.branchTo (f (s.gr a)) (disp.signExtend 56))

def execBeq (a b : BitVec 5) (ta tb : BitVec 1) (disp : BitVec 12) (s : State) : Out :=
  branch2 (.beq a b ta tb disp) a b ta tb disp (fun x y => x == y) s
def execBne (a b : BitVec 5) (ta tb : BitVec 1) (disp : BitVec 12) (s : State) : Out :=
  branch2 (.bne a b ta tb disp) a b ta tb disp (fun x y => x != y) s
def execBlt (a b : BitVec 5) (ta tb : BitVec 1) (disp : BitVec 12) (s : State) : Out :=
  branch2 (.blt a b ta tb disp) a b ta tb disp (fun x y => x.slt y) s
def execBge (a b : BitVec 5) (ta tb : BitVec 1) (disp : BitVec 12) (s : State) : Out :=
  branch2 (.bge a b ta tb disp) a b ta tb disp (fun x y => !x.slt y) s
def execBltz (a : BitVec 5) (ta : BitVec 1) (disp : BitVec 12) (s : State) : Out :=
  branch1 (.bltz a ta disp) a ta disp (fun x => x.msb) s
def execBgez (a : BitVec 5) (ta : BitVec 1) (disp : BitVec 12) (s : State) : Out :=
  branch1 (.bgez a ta disp) a ta disp (fun x => !x.msb) s
def execB (disp : BitVec 24) (s : State) : Out :=
  operands (.b disp) [] [] s (fun s => s.branchTo true (disp.signExtend 56))
/-- `bl` writes the return address to g7 (R239). -/
def execBl (disp : BitVec 24) (s : State) : Out :=
  operands (.bl disp) [] [7#5] s (fun s =>
    (s.setCur (s.cur.fillReg 7 ((s.cur.pc + 4).zeroExtend 64) 0)).branchTo true (disp.signExtend 56))

/-- R240: the target is A[55:0]; its low two bits must be zero. -/
def State.jumpTo (s : State) (a : BitVec 5) (link : State → State) : State :=
  let t := ptrVa (s.gr a)
  if t % 4 ≠ 0 then s.trap (tALIGN_FAULT (BitVec.ofNat 64 t))
  else (fun s1 => s1.setCur { s1.cur with pc := BitVec.ofNat 56 t }) (link s)

def execJr (a : BitVec 5) (ta : BitVec 1) (s : State) : Out :=
  operands (.jr a ta) [(a, ta)] [] s (fun s => s.jumpTo a id)
def execJlr (d a : BitVec 5) (ta : BitVec 1) (s : State) : Out :=
  operands (.jlr d a ta) [(a, ta)] [d] s (fun s =>
    s.jumpTo a (fun s => s.setCur (s.cur.fillReg d.toNat ((s.cur.pc + 4).zeroExtend 64) (s.cur.depOf [a.toNat]))))

end Sys2Proof.Machine
end

