-- ==== Sys2Proof/Machine/TilePort.lean ====
section
/-! DEFINITION. Tiles: shape records, handles, the tile port, seals, the Lathes' handle queues, and the release of a Lathe
(R89, R91 to R95, R125 to R137). -/

namespace Sys2Proof.Machine

/-! ### Shape records (R125, R126, R31) -/

/-- The least multiple of n that is at least x. -/
def roundUp (x n : Nat) : Nat := (x + n - 1) / n * n

/-- The worst-case length of a WF8 block of k elements (R31). -/
def wf8BlockMax (k : Nat) : Nat := roundUp (2 + (12 * k + 7) / 8) 2

/-- The row length (R125, R31). -/
def Shape.rowLen (h : Shape) : Nat :=
  if h.fmt = 14 then
    let n := 2 ^ (4 + h.blog)
    h.cols / n * wf8BlockMax n + (if h.cols % n = 0 then 0 else wf8BlockMax (h.cols % n))
  else ((h.cols - 1) * h.estr + 1) * elemSize h.fmt

/-- The end of the footprint (R125). -/
def Shape.stop (h : Shape) : Nat := roundUp (h.base + (h.rows - 1) * h.rstride + h.rowLen) 64

/-- The offset of a row. -/
def Shape.rowAt (h : Shape) (row : Nat) : Nat := h.base + row * h.rstride

/-- The record's fields (Table 9-1). -/
def parseShape (w0 w1 : Nat) : Shape :=
  { fmt := bitsOf w0 63 59, blog := bitsOf w0 58 56, estr := bitsOf w0 55 52, swz := bitsOf w0 51 50, rows := bitsOf w0 47 40,
    cols := bitsOf w0 39 30, base := bitsOf w0 21 0, rstride := bitsOf w1 19 0 }

/-- Two footprints share a granule. -/
def Shape.meets (a b : Shape) : Bool := decide (a.base < b.stop) && decide (b.base < a.stop)

/-- The keys of a cluster's tile-table entries. -/
def tileKey (cluster idx : Nat) : Nat := 1024 * cluster + idx

/-- The tiles of a cluster that are not FREE. -/
def State.tilesOf (s : State) (cluster : Nat) : List (Nat × Tile) :=
  s.tiles.filter (fun p => p.1 / 1024 == cluster && p.2.st != .free)

/-- R126: the causes of TILE_SHAPE. -/
def State.shapeBad (s : State) (cluster w0 w1 : Nat) : Bool :=
  let h := parseShape w0 w1
  bitsOf w0 49 48 != 0 || bitsOf w0 29 22 != 0 || w1 / 2 ^ 20 != 0
  || h.rows == 0 || decide (128 < h.rows) || h.cols == 0 || decide (512 < h.cols)
  || h.estr == 0 || decide (8 < h.estr) || (h.fmt == 14 && h.estr != 1) || h.swz == 3 || h.base % 64 != 0
  || h.rstride % 16 != 0 || decide (h.rstride < h.rowLen) || decide (2 ^ 22 < h.stop) || decide (h.base < 0x5000)
  || (s.tilesOf cluster).any (fun p => p.2.shape.meets h)

/-- R42: a generic store to a byte of a tile that is open or sealed. -/
def State.tileOwned (s : State) (a n : Nat) : Bool :=
  (s.tilesOf (a / 2 ^ 22)).any (fun p =>
    decide (p.2.shape.base < a % 2 ^ 22 + n) && decide (a % 2 ^ 22 < p.2.shape.stop))

/-! ### Handles (R128, R129) -/

/-- The handle of an entry (Table 9-5). -/
def handleOf (cluster idx gen : Nat) : Nat := cluster * 2 ^ 24 + idx * 2 ^ 14 + gen * 2 ^ 8

/-- The handle of the tile at a key. -/
def State.handleAt (s : State) (t : Nat) : Nat := handleOf (t / 1024) (t % 1024) (s.tile t).gen

/-- The entry a handle names. -/
def handleKey (h : Nat) : Nat := tileKey (bitsOf h 31 24) (bitsOf h 23 14)

/-- R129: the handle is current for an agent of a context. -/
def State.handleCurrent (s : State) (ctx h : Nat) : Bool :=
  let t := s.tile (handleKey h)
  bitsOf h 7 0 == 0 && decide (h < 2 ^ 32) && t.st != .free && t.gen == bitsOf h 13 8 && t.ctx == ctx

/-- The entry that a handle names for an agent of a cluster; none where the operation traps TILE_STALE. -/
def State.tileFor (s : State) (cluster ctx h : Nat) : Option Nat :=
  if s.handleCurrent ctx h && bitsOf h 31 24 == cluster then some (handleKey h) else none

/-! ### Handle queues (R93 to R95) -/

/-- The Lathe that a tile is bound to. -/
def State.latheOf (s : State) (t : Nat) : Nat := 4 * (t / 1024) + (s.tile t).lathe

/-- A Lathe is bound to a launch of a context. -/
def State.boundIn (s : State) (l ctx : Nat) : Bool :=
  match (s.lathe l).bound with
  | none => false
  | some id => id % 64 == ctx

/-- The tile becomes FREE and its generation advances (R129). -/
def State.freeTile (s : State) (t : Nat) : State := s.setTile t { gen := ((s.tile t).gen + 1) % 64 }

/-- The entry that a seal or a `qpost` of a tile writes (R93). -/
def State.entryFor (s : State) (t : Nat) : HqEntry :=
  let x := s.tile t
  { chime := x.chime, full := x.vcnt == x.shape.rows, vcnt := x.vcnt, handle := BitVec.ofNat 32 (s.handleAt t) }

/-- An entry is written at the end of a handle queue. -/
def State.hqPush (s : State) (l : Nat) (e : HqEntry) : State :=
  let x := s.lathe l
  s.setLathe l { x with hq := x.hq ++ [e] }

/-- The tile of an entry, while it is the one that the entry was written for: current in the context of the Lathe, and in a state (R69). -/
def State.entryTile (s : State) (l : Nat) (e : HqEntry) (st : TileSt) : Option Nat :=
  (s.tileFor (l / 4) (s.lathe l).ctx e.handle.toNat).filter (fun t => (s.tile t).st == st)

/-- The tile of an entry goes from a state to another. -/
def State.entryMoves (s : State) (l : Nat) (e : HqEntry) (old new : TileSt) : State :=
  match s.entryTile l e old with
  | some t => s.setTile t { s.tile t with st := new }
  | none => s

/-- The tile of an entry is returned. -/
def State.entryFreed (s : State) (l : Nat) (e : HqEntry) (st : TileSt) : State :=
  match s.entryTile l e st with
  | some t => s.freeTile t
  | none => s

/-- The cycle from which the post of a seal may enter its queue (R310). -/
def State.postFrom (s : State) (l : Nat) (e : HqEntry) : Nat := ((s.entryTile l e .held).map (fun t => (s.tile t).postAfter)).getD 0

/-- R94: pending seal posts enter the queue, in order, while it has room. A waiting `qpost` or `qeos` at the head keeps its place
until its slot, or its Lathe, goes on. A post that waits for the bytes of `smx` keeps its place too (R310).
DEDUCED, unsafe: assumption 65. -/
def State.hqRefill (s : State) (l : Nat) : Nat → State
  | 0 => s
  | n + 1 =>
    let x := s.lathe l
    match x.hqWait with
    | .seal _ e :: rest =>
      if x.hq.length < 64 ∧ s.postFrom l e ≤ s.cycle then
        State.hqRefill (((s.setLathe l { x with hqWait := rest }).hqPush l e).entryMoves l e .held .queued) l n
      else s
    | _ => s

def tTILE_STATE : TrapInfo := causeTrap 11

/-- A tile is posted: the entry is written, the tile becomes QUEUED, and a `tret` of it that waits for reads traps TILE_STATE (R263, R286).
DEDUCED, unsafe: assumption 26. -/
def State.queueTile (s : State) (t l : Nat) : State :=
  let x := s.tile t
  let s1 := (s.hqPush l (s.entryFor t)).setTile t { x with st := .queued, lathe := l % 4, returnLate := false }
  (s.slots.filter (fun p => p.2.st == .parkedWait && p.2.wait == .tret t x.gen)).foldl
    (fun u p => u.trapSlot p.1 tTILE_STATE p.2.pc.toNat p.2.pc.toNat) s1

/-- A post may enter: the queue has room, and nothing waits before it; a seal's post that waits for the bytes of `smx` is waited for
too (R310), and the wait is counted.
DEDUCED, unsafe: assumption 65. DESIGN CHOICE, unsafe: assumption 85. -/
def State.hqOpen (s : State) (l : Nat) (who : PendingPost) : Bool :=
  let x := s.lathe l
  decide (x.hq.length < 64) && (x.hqWait.isEmpty || x.hqWait.head? == some who)

/-- The post no longer waits; those behind it move up. -/
def State.hqDone (s : State) (l : Nat) (who : PendingPost) : State :=
  let x := s.lathe l
  let s1 := s.setLathe l { x with hqWait := x.hqWait.erase who }
  s1.hqRefill l ((s1.lathe l).hqWait.length)

/-- Saturating increment of a 32-bit counter. -/
def sat32 (n : Nat) : Nat := if n + 1 < 2 ^ 32 then n + 1 else 2 ^ 32 - 1

/-- The post of a seal is held at the tile table and does not wait (R94); a `qpost` or a `qeos` waits (R95).
DEDUCED, unsafe: assumption 42. -/
def PendingPost.waits : PendingPost → Bool
  | .seal _ _ => false
  | _ => true

/-- R95: a post begins to wait, and the stall counter counts it once; a seal's held post takes its place uncounted (R94).
DEDUCED, unsafe: assumption 42. -/
def State.hqWaits (s : State) (l : Nat) (who : PendingPost) : State :=
  let x := s.lathe l
  if x.hqWait.contains who then s
  else s.setLathe l { x with hqWait := x.hqWait ++ [who], hqStall := if who.waits then sat32 x.hqStall else x.hqStall }

/-- R94, R89: the post of a tile just sealed: an entry, a pending post, or the tile's return; where `smx` has written to the tile, no
earlier than its bytes have landed (R310).
DEDUCED, unsafe: assumption 42. -/
def State.postSeal (s : State) (t : Nat) : State :=
  let l := s.latheOf t
  if s.boundIn l (s.tile t).ctx then
    let e := s.entryFor t
    if s.hqOpen l (.seal t e) && decide ((s.tile t).postAfter ≤ s.cycle) then (s.hqPush l e).setTile t { s.tile t with st := .queued }
    else (s.setTile t { s.tile t with st := .held }).hqWaits l (.seal t e)
  else s.freeTile t

/-- The seal posts at the head of a Lathe's queue that may enter now do (R94, R310). -/
def State.duePosts (s : State) (l : Nat) : State := s.hqRefill l ((s.lathe l).hqWait.length)

/-- A tile is sealed: its chime stops, its views join (R68, R130), its post is made. -/
def State.sealTile (s : State) (t : Nat) (chime : Bool) : State :=
  let x := s.tile t
  let s1 := s.setTile t { x with st := .held, chime := chime, chimeAt := none, chimeLeft := none }
  State.postSeal (s1.viewJoin (spAddr (t / 1024) x.shape.base) (x.shape.stop - x.shape.base)) t

/-- R130: the countdown of a tile has reached zero. A chime seal lapses a checkpoint (R74).
DEDUCED, unsafe: assumption 24. DEDUCED, unsafe: assumption 25. -/
def State.chimeDue (s : State) (t : Nat) : State :=
  let x := s.tile t
  match x.st, x.chimeAt with
  | .open_, some c => if c ≤ s.cycle then (s.lapse x.ctx).sealTile t true else s
  | _, _ => s

/-! ### The tile port (R131, R132) -/

/-- The tile's countdown reaches zero in this cycle: it is sealed before any write of the cycle (R132). -/
def Tile.sealsNow (x : Tile) (cycle : Nat) : Bool := (x.chimeAt.map (fun c => decide (c ≤ cycle))).getD false

/-- The first refusal code of Table 9-2 that applies; 0 for acceptance. -/
def State.portCode (s : State) (agent : Option Nat) (ctx h row off n : Nat) : Nat :=
  let x := s.tile (handleKey h)
  if !s.handleCurrent ctx h || (agent.map (fun c => bitsOf h 31 24 != c)).getD false then 1
  else if x.shape.rows ≤ row || x.shape.rowLen < off + n then 2
  else if x.st ≠ .open_ || x.sealsNow s.cycle then 3
  else if x.valid.getLsbD row then 4
  else 0

/-- Bytes are written at offsets in a row, through one view. -/
def State.rowWrite (s : State) (t row : Nat) (swz : Bool) (ps : List (Nat × List Byte)) : State :=
  ps.foldl (fun u p =>
    let a := spAddr (t / 1024) ((s.tile t).shape.rowAt row + p.1)
    (u.spWrite a swz p.2).healSp a p.2.length) (s.setTile t { s.tile t with wroteAt := some s.cycle })

/-- Rows become valid together; a fill target that is reached seals the tile (R131, R132, R310). -/
def State.rowsFinal (s : State) (t : Nat) (rows : List Nat) : State :=
  let x := s.tile t
  let x1 := { x with valid := rows.foldl (fun v r => v ||| BitVec.ofNat 128 (2 ^ r)) x.valid, vcnt := x.vcnt + rows.length }
  let s1 := s.setTile t x1
  if x1.target ≠ 0 ∧ x.vcnt < x1.target ∧ x1.target ≤ x1.vcnt then s1.sealTile t false else s1

/-- The effect of an accepted write (R131); the fill target is reached inside it (R132). -/
def State.portStore (s : State) (t row off : Nat) (bs : List Byte) (fin swz : Bool) : State :=
  let s1 := s.rowWrite t row swz [(off, bs)]
  if fin then s1.rowsFinal t [row] else s1

/-- One write reaches the port: one decision, against the entry as the seals of its cycle leave it (R131, R132). -/
def State.portWrite (s : State) (agent : Option Nat) (ctx h row off : Nat) (bs : List Byte) (fin swz : Bool) : State × Nat :=
  let code := s.portCode agent ctx h row off bs.length
  if code = 0 then (s.portStore (handleKey h) row off bs fin swz, 0) else (s, code)

/-- The port has accepted a write of the tile in this cycle: a seal that comes now belongs to a later cycle, since the seals of a cycle
precede its writes (R132).
DEDUCED, unsafe: assumption 73. -/
def State.portBusy (s : State) (t : Nat) : Bool := (s.tile t).st == .open_ && (s.tile t).wroteAt == some s.cycle

/-- The trap of a refused `tst` or `tsr` (Table 9-2); its status is the code.
DEDUCED, unsafe: assumption 58. -/
def portTrap (code : Nat) : TrapInfo :=
  { cause := match code with
      | 1 => 9
      | 2 => 10
      | _ => 12
    status := code }

/-! ### Status (R134, Table 9-4) -/

/-- The status word of a tile. -/
def State.tileStatus (s : State) (t : Nat) (rfsd : Bool) : Nat :=
  let x := s.tile t
  let st := match x.st with
    | .free => 0
    | .open_ => 1
    | .held => 2
    | .queued => 3
    | .consumed => 4
  let left := match x.chimeAt with
    | some c => c - s.cycle
    | none => x.chimeLeft.getD 0
  st * 2 ^ 61 + b2n x.chime * 2 ^ 60 + b2n rfsd * 2 ^ 59 + x.vcnt * 2 ^ 48 + x.lathe * 2 ^ 46 + x.ctx * 2 ^ 40 + x.gen * 2 ^ 34
    + x.target * 2 ^ 26 + left

/-! ### Returning a tile (R287, R304) and releasing a Lathe (R89) -/

/-- Reads of the tile by a Lathe (R304), or by a TREAD (R321), are in progress. -/
def State.tileRead (s : State) (t : Nat) : Bool :=
  let reads := fun (x : Xfer) => bitsOf ((x.req.w.getD 0 0).toNat) 63 56 == 10 && x.accepted && x.stopAt.isNone && decide (x.pos < x.total)
    && handleKey (x.req.w.getD 1 0).toNat == t
  s.lathes.any (fun p => p.2.reads.any (fun r => r.1 == t && decide (s.cycle < r.2)))
  || s.clusters.any (fun p => p.2.xfers.any reads)

/-- The slot's instruction issues again.
DEDUCED, unsafe: assumption 65. -/
def State.again (s : State) (k : Nat) : State := s.setSlot k { s.slot k with st := .active, wait := .none, finishing := true }

/-- The last read of a tile has ended: a `tret` that waits returns it. Another slot's issues again.
DEDUCED, unsafe: assumption 26. -/
def State.tretLate (s : State) (t : Nat) : State :=
  let x := s.tile t
  if !x.returnLate || s.tileRead t then s
  else
    let waits := s.slots.filter (fun p => p.2.st == .parkedWait && p.2.wait == .tret t x.gen)
    let s1 := s.freeTile t
    match waits with
    | [] => s1
    | (k, y) :: rest =>
      rest.foldl (fun u p => u.again p.1) (s1.setSlot k { y with st := .active, wait := .none, pc := y.pc + 4 })

/-- The tiles of entries are returned.
DEDUCED, unsafe: assumption 26. -/
def State.returnTiles (s : State) (l : Nat) (es : List HqEntry) (st : TileSt) : State := es.foldl (fun t e => t.entryFreed l e st) s

/-- The other Lathes of the cluster that are bound to the launch note that it has lost this one: a post to it, in a bundle of theirs that
stalls, posts nothing (R89, R286). -/
def State.peersLose (s : State) (l : Nat) (launch : Option Nat) : State :=
  (numsFrom (l / 4 * 4) 4).foldl (fun u m =>
    let y := u.lathe m
    if m ≠ l ∧ launch.isSome ∧ y.bound = launch then u.setLathe m { y with gone := l :: y.gone } else u) s

/-- R89: the Lathe is released. Entries and pending posts of its queue are discarded and their tiles returned; its launch may now
be done. -/
def State.releaseLathe (s : State) (l : Nat) : State :=
  let x := s.lathe l
  let s := s.peersLose l x.bound
  let held := x.hqWait.filterMap (fun p => match p with
    | .seal _ e => some e
    | _ => none)
  let s0 := s.setLathe l { x with bound := none, hq := [], hqWait := x.hqWait.filter PendingPost.waits, relPending := false, loops := [] }
  let s1 := (s0.returnTiles l (x.hq.filter (fun e => !e.eos)) .queued).returnTiles l held .held
  match x.bound with
  | none => s1
  | some id =>
    match Map.find? s1.launches id with
    | none => s1
    | some la => State.launchCheck { s1 with launches := Map.set s1.launches id { la with lathes := la.lathes.erase l } } id

end Sys2Proof.Machine
end

