-- ==== Sys2Proof/Machine/MemAccess.lean ====
section
/-! DEFINITION. How a spindle slot reaches memory: effective addresses, windows and translation, loads, stores through the
gathering buffer, releases and acquires (R41 to R59, R242 to R250). -/

namespace Sys2Proof.Machine

/-- Where an access goes (R41, R45, R168). -/
inductive Tgt where
  | sp (a : Nat)
  | hbm (pa : Nat)
  | host (pa : Nat)
  | remote (rmod pa : Nat)
  deriving DecidableEq, Repr

/-- What decoding and translating an address gives. -/
inductive Res where
  | at_ (t : Tgt)
  | trap (t : TrapInfo)
  | walk (a : Nat) (exempt : Bool)      -- no TLB holds the translation
  deriving DecidableEq, Repr

def tDATA_FAULT (faddr : Word64) (reason status : Nat) : TrapInfo :=
  { cause := 4, faddr := faddr, reason := reason, status := status }

/-- What TADDR reports of an address (R328). -/
def State.faddrOf (s : State) (ctx tid va : Nat) : Word64 :=
  match windowOf va with
  | .priv off => privTaddr (s.arena ctx tid off)
  | _ => BitVec.ofNat 64 va

/-- The global address that a va of the issuing slot denotes (R43). -/
def State.globalVa (s : State) (va : Nat) : Nat :=
  match windowOf va with
  | .priv off => s.arena s.cur.ctx s.cur.tid off
  | _ => va

/-- The target of a translation. -/
def tgtOf (e : TlbEntry) (pa : Nat) : Tgt :=
  match e.tgt with
  | 0 => .hbm pa
  | 1 => .host pa
  | _ => .remote e.rmod pa

/-- R41 to R44, R169: the target of an access by a slot, through its cluster's TLB.
DEDUCED, unsafe: assumption 19. -/
def State.resolve (s : State) (k va : Nat) (acc : Acc3) : Res :=
  let x := s.slot k
  let cl := clusterOf (k / 16)
  let go := fun (a : Nat) (exempt : Bool) =>
    match s.look cl x.ctx a acc (!x.hnd) exempt with
    | .ok e pa => Res.at_ (tgtOf e pa)
    | .fault r => .trap (tDATA_FAULT (s.faddrOf x.ctx x.tid va) r 0)
    | .absent _ => .walk a exempt
    | .miss => .walk a exempt
  match windowOf va with
  | .none => .trap (tDATA_FAULT (BitVec.ofNat 64 va) 1 0)
  | .scratch off => .at_ (.sp (spAddr cl off))
  | .priv off => go (s.arena x.ctx x.tid off) true
  | .global => go va false

/-- R172: a miss is merged into a walk outstanding on the die, or starts one.
DESIGN CHOICE, unsafe: assumption 8. -/
def State.askWalk (s : State) (ctx a : Nat) (r : WalkReq) : State :=
  let d := dieOf r.cluster
  let x := s.die d
  let vpn := a / 2 ^ 19
  if x.walks.any (fun w => w.ctx == ctx && w.vpn == vpn) then
    s.setDie d { x with walks := x.walks.map (fun w =>
      if w.ctx == ctx && w.vpn == vpn then { w with reqs := w.reqs ++ [r] } else w) }
  else s.setDie d { x with walks := x.walks ++ [{ ctx := ctx, vpn := vpn, reqs := [r] }] }

/-- R254: a TLB miss parks the slot, PARKED_REG and awaiting no register, until the walk completes; the instruction then issues again.
DESIGN CHOICE, unsafe: assumption 89. -/
def State.walkWait (s : State) (a va : Nat) (exempt : Bool) (acc : Acc3) (kind : WalkKind := .access) : State :=
  let x := s.cur
  let r : WalkReq := { who := .slot s.key, cluster := clusterOf s.coreNo, va := a, faddr := s.faddrOf x.ctx x.tid va, acc := acc,
                       user := !x.hnd && !exempt, kind := kind, pc := x.pc.toNat }
  let s1 := s.setCur { x with st := .parkedReg, awaiting := [], wait := .walk x.ctx (a / 2 ^ 19), parkedAt := s.cycle }
  s1.askWalk x.ctx a r

/-! ### Order (R55, R56, R66) -/

/-- The registers whose fills come over a link, of those fills that satisfy p. -/
def Slot.linkFills (x : Slot) (p : Fill → Bool) : List Nat :=
  (x.fills.filter (fun f => (match f.src with
    | .link _ => true
    | _ => false) && p f)).map (fun f => f.reg)

/-- A posted remote write of the thread in slot k has not been acknowledged (R66). -/
def State.postedBy (s : State) (k : Nat) : Bool := s.postedAny (fun ks _ => ks.contains k)

/-- R55(1): accesses after an acquire whose value comes over a link wait for it. R55(3): an acquire waits until an earlier release
that went to another module has been performed there. -/
def State.afterAcquires (s : State) (isAcq : Bool) (f : State → State) : State :=
  match s.cur.linkFills (fun fl => fl.acq || (isAcq && fl.rel)) with
  | [] =>
    if isAcq && s.cur.relOut then
      if s.postedBy s.key then s.parkWait (.acks false) else f (s.setCur { s.cur with relOut := false })
    else f s
  | rs => s.park rs

/-- The writes that a release or fence of a scope orders have been acknowledged: at system scope the context's, at a narrower scope the
slot's own, whose order no other slot can have observed (R55, R57, R66).
DEDUCED, unsafe: assumption 27. -/
def State.acked (s : State) (scope : Nat) : Bool :=
  if scope = 5 then !s.unacked s.cur.ctx else scope = 0 || !s.postedBy s.key

/-- Before a release, or a fence, performs: earlier loads have their values, the buffer drains, and earlier remote writes are
acknowledged (R48, R55, R66). Otherwise the slot waits, PARKED_WAIT, and issues again.
DEDUCED, unsafe: assumption 27. DESIGN CHOICE, unsafe: assumption 89. -/
def State.release (s : State) (drains loads : Bool) (scope : Nat) (f : State → State) : State :=
  match (if loads then s.cur.linkFills (fun _ => true) else []) with
  | [] =>
    if drains then
      match s.drainCore s.coreNo with
      | (s1, some w) => s1.parkWait (.drain w)
      | (s1, none) => if s1.acked scope then f s1 else s1.parkWait (.acks (scope = 5))
    else f s
  | rs => s.park rs

/-- A release that has gone to another module: later acquires wait for its acknowledgement (R55(3)). -/
def State.releaseOut (s : State) (rel : Bool) : State := if rel then s.setCur { s.cur with relOut := true } else s

/-- A read that was performed at the home slice takes the core's older line of the address with it, so that no later load of the slot
returns what was there before (R53). -/
def State.dropLine (s : State) (core pa : Nat) : State :=
  let c := s.core core
  s.setCore core { c with l1 := c.l1.filter (fun l => l.addr != pa / 32 * 32) }

/-- R46: every line of a core's L1 is invalidated. -/
def State.dropL1 (s : State) (core : Nat) : State := s.setCore core { s.core core with l1 := [] }

/-- R46: the effect of an acquire at a scope. -/
def State.acquire (s : State) (isAcq : Bool) (scope : Nat) : State :=
  if isAcq && decide (2 ≤ scope) then s.dropL1 s.coreNo else s

/-- R194, R331: a release at system scope has completed, and reports the first refusal of the slot's posted writes. -/
def State.reportRefused (s : State) (isRel : Bool) (scope : Nat) (pc : BitVec 56) : State :=
  match s.cur.refused with
  | some st =>
    if isRel && scope == 5 then
      State.trapSlot (s.setCur { s.cur with refused := none }) s.key { cause := 18, status := st } pc.toNat s.cur.pc.toNat
    else s
  | none => s

/-- Order codes (R201). -/
def isAcq (order : BitVec 2) : Bool := order.getLsbD 0
def isRel (order : BitVec 2) : Bool := order.getLsbD 1

/-! ### Effective addresses (R242) -/

/-- EA of base, offset and scale. -/
def effAddr (base : Word64) (off : BitVec 8) (scale : Nat) : Nat := wrapInt 56 ((ptrVa base : Int) + off.toInt * scale)

/-! ### Loads (R46, R47, R48, R157) -/

/-- The slot has bytes of the range in the buffer. -/
def State.hasOwn (s : State) (k tgt rmod pa n : Nat) : Bool :=
  (s.core (k / 16)).gather.any (fun e => e.tgt == tgt && e.rmod == rmod &&
    e.bytes.any (fun b => b.2.2 % 2 ^ 16 == k && decide (pa ≤ e.block + b.1) && decide (e.block + b.1 < pa + n)))

/-- The L1 line that may serve a plain load (R46, R47, R159).
DESIGN CHOICE, unsafe: assumption 8. -/
def State.l1Line (s : State) (k pa n dep : Nat) : Option L1Line :=
  let x := s.slot k
  if s.hasOwn k 0 0 pa n then none
  else (s.core (k / 16)).l1.find? (fun l => l.addr == pa / 32 * 32 && l.hyp == x.hyp && (x.hyp == 0 || l.ctx == x.ctx)
    && decide (dep < l.filled) && decide (s.cycle < l.filled + 4096))

/-- The line of an address is filled in a core's L1, as a context sees it under a hypothesis (R46, R159). The cache holds 32 KiB
(Table 1-1); the line filled first leaves.
DESIGN CHOICE, unsafe: assumption 8. -/
def State.putLine (s : State) (core ctx hyp pa : Nat) : State :=
  let c := s.core core
  let a := pa / 32 * 32
  let l : L1Line := { addr := a, ctx := ctx, hyp := hyp, filled := s.cycle, bytes := s.visBytes ctx hyp a 32 }
  s.setCore core { c with l1 := (l :: c.l1.filter (fun m => m.addr != a)).take 1024 }

/-- A load miss fills the line of an address under the thread's hypothesis; the log is searched once for an instruction (R160). -/
def State.fillL1 (s : State) (k pa : Nat) : State :=
  let x := s.slot k
  let a := pa / 32 * 32
  let t := if x.looked.contains (pa / 32) then s.touchDir x.ctx x.hyp a 32 else s.lookedUp (clusterOf (k / 16)) x.ctx x.hyp a 32
  t.putLine (k / 16) x.ctx x.hyp pa

/-- A load of module HBM must wait for the eviction balance: no line serves it, and the sector that it fetches has log records under the
thread's hypothesis (R112, R160), for which the instruction has not been debited yet. -/
def State.loadWaits (s : State) (k pa n dep : Nat) (bypass : Bool) : Bool :=
  let x := s.slot k
  let cl := clusterOf (k / 16)
  if bypass then s.lookupWaits cl x.ctx x.hyp pa n
  else !((s.l1Line k pa n dep).isSome && s.freeBit) && !x.looked.contains (pa / 32) && s.lookupWaits cl x.ctx x.hyp (pa / 32 * 32) 32

/-- What a load of module HBM returns: the bytes and their dependency time; none for a poisoned sector (R336). Whether an L1 line
that was filled is still held is a free choice.
DESIGN CHOICE, unsafe: assumption 7. -/
def State.loadHbm (s : State) (k pa n dep : Nat) (bypass : Bool) : State × Option (List Byte × Nat) :=
  match (if bypass then none else s.l1Line k pa n dep) with
  | some l =>
    if s.freeBit then (s.tookFree, some ((numsFrom (pa % 32) n).map (fun i => l.bytes.getD i 0), l.filled))
    else if s.poisoned pa n then (s.tookFree, none)
    else (s.tookFree.fillL1 k pa, some (s.slotBytes k pa n, s.cycle))
  | none =>
    if s.poisoned pa n then (s, none)
    else (if bypass then s.lookedUp (clusterOf (k / 16)) (s.slot k).ctx (s.slot k).hyp pa n else s.fillL1 k pa, some (s.slotBytes k pa n, s.cycle))

/-- The register value of loaded bytes (Tables 16-1, 16-2). -/
def convWord (c : Conv) (n v : Nat) : Word64 :=
  match c with
  | .raw => BitVec.ofNat 64 v
  | .sext _ => BitVec.ofInt 64 (sextInt (8 * n) v)
  | .zext _ => BitVec.ofNat 64 v
  | .fp code => BitVec.ofNat 64 (fcvtCode (fmtOfCode code) fp64 v)

/-- A byte range meets a poisoned sector of scratchpad. -/
def State.spPoisoned (s : State) (a n : Nat) : Bool :=
  s.spPoison.any (fun x => decide (32 * x < a + n) && decide (a < 32 * x + 32))

/-- A read of host memory over the range completes with an error or poison (R199). -/
def State.hostFails (s : State) (a n : Nat) : Bool :=
  s.hostBad.any (fun x => decide (32 * x < a + n) && decide (a < 32 * x + 32))

/-- Host or remote bytes with the slot's own buffered bytes over them. -/
def State.farBytes (s : State) (k tgt rmod pa n : Nat) (m : Memory) : List Byte :=
  (numsFrom pa n).map (fun a => (s.ownByte k tgt rmod (s.slot k).ctx 0 a).getD (Memory.readByte m a))

/-- Every byte of the range is the slot's own buffered byte. -/
def State.allOwn (s : State) (k tgt rmod pa n : Nat) : Bool :=
  (numsFrom pa n).all (fun a => (s.ownByte k tgt rmod (s.slot k).ctx 0 a).isSome)

/-- A core's buffered bytes of the block of an address on another module leave before a read of it (R48, R196). -/
def State.drainBlock (s : State) (core rmod pa : Nat) : State :=
  (s.drainThese core (fun e => e.tgt == 2 && e.rmod == rmod && e.block == pa / 256 * 256)).1

/-- The DATA_FAULT that a fill raises when it lands with a link status (R194, R331).
DEDUCED, unsafe: assumption 19. -/
def remoteFault (status : Nat) (faddr : Word64) (pc : BitVec 56) : LateTrap :=
  { cause := 4, status := status, reason := 5, faddr := faddr, pc := pc.toNat, tpc := pc.toNat }

/-- R244: a load from its target into d, acquire at a scope or plain.
DESIGN CHOICE, unsafe: assumption 7. -/
def State.loadFrom (s : State) (t : Tgt) (d : BitVec 5) (n dep : Nat) (conv : Conv) (acq : Bool) (scope : Nat) (faddr : Word64) : State :=
  let k := s.key
  match t with
  | .sp a =>
    if s.spPoisoned a n then s.trap (tDATA_FAULT faddr 6 0)
    else (s.tookFree.pend d { reg := d.toNat, v := convWord conv n (leNat (s.spBytes a n)), dep := s.cycle }).acquire acq scope
  | .hbm pa =>
    if s.loadWaits k pa n dep (acq && decide (2 ≤ scope)) then s.parkWait (.drain (.budget s.cur.ctx (clusterOf s.coreNo)))
    else match s.loadHbm k pa n dep (acq && decide (2 ≤ scope)) with
    | (s1, none) => s1.trap (tDATA_FAULT faddr 6 0)
    | (s1, some (bs, dp)) => (s1.pend d { reg := d.toNat, v := convWord conv n (leNat bs), dep := dp }).acquire acq scope
  | .host pa =>
    if s.hostFails pa n then
      (s.pend d { reg := d.toNat, dep := s.cycle, fault := some (remoteFault 0 faddr s.cur.pc) }).acquire acq scope
    else
      (s.pend d { reg := d.toNat, v := convWord conv n (leNat (s.farBytes k 1 0 pa n s.host)), dep := s.cycle }).acquire acq scope
  | .remote rmod pa =>
    if s.allOwn k 2 rmod pa n then
      (s.pend d { reg := d.toNat, v := convWord conv n (leNat (s.farBytes k 2 rmod pa n [])), dep := s.cycle }).acquire acq scope
    else
      let s1 := s.drainBlock s.coreNo rmod pa
      let s2 := s1.egress (clusterOf s.coreNo) s.cur.ctx
        { op := 2, dst := rmod, src := s.links.lmod, len := n - 1, addr := pa } (.load k d.toNat conv faddr s.cur.pc.toNat)
      (s2.pend d { reg := d.toNat, src := .link s1.ctl.free, conv := conv, acq := acq }).acquire acq scope

/-! ### Words that an instruction other than a load reads as loads (R260, R270, R275) -/

/-- The words read from other modules are used up, and the log reads of the next instruction are its own. -/
def State.dropFetched (s : State) : State := s.setCur { s.cur with fetched := [], looked := [] }

/-- Reads n bytes, within a 32-byte line, at a va as a load of the issuing slot: their number and dependency time, or the state in
which the instruction has stopped. A fault is precise. A word of another module is asked for, and the instruction issues again when
it has come.
DEDUCED, unsafe: assumption 44. -/
def State.tryWord (s : State) (va n dep : Nat) : Except State (State × Nat × Nat) :=
  let x := s.cur
  let faddr := s.faddrOf x.ctx x.tid va
  let bad := fun (t : State) (reason status : Nat) => Except.error (t.dropFetched.trap (tDATA_FAULT faddr reason status))
  match s.resolve s.key va .read with
  | .trap t => .error (s.dropFetched.trap t)
  | .walk a exempt => .error (s.walkWait a va exempt .read)
  | .at_ (.sp a) => if s.spPoisoned a n then bad s 6 0 else .ok (s.tookFree, leNat (s.spBytes a n), s.cycle)
  | .at_ (.hbm pa) =>
    if s.loadWaits s.key pa n dep false then .error (s.parkWait (.drain (.budget x.ctx (clusterOf s.coreNo))))
    else match s.loadHbm s.key pa n dep false with
    | (s1, none) => bad s1 6 0
    | (s1, some (bs, dp)) => .ok (if x.hyp = 0 then s1 else s1.setCur { s1.cur with looked := pa / 32 :: s1.cur.looked }, leNat bs, max dep dp)
  | .at_ (.host pa) => if s.hostFails pa n then bad s 5 0 else .ok (s, leNat (s.farBytes s.key 1 0 pa n s.host), s.cycle)
  | .at_ (.remote rmod pa) =>
    match x.fetched.find? (fun e => e.rmod == rmod && e.pa == pa) with
    | some e => if e.status ≠ 0 then bad s 5 e.status else .ok (s, leNat (e.bytes.take n), s.cycle)
    | none =>
      let s1 := s.drainBlock s.coreNo rmod pa
      let s2 := s1.egress (clusterOf s.coreNo) x.ctx { op := 2, dst := rmod, src := s.links.lmod, len := n - 1, addr := pa }
        (.fetch s.key s1.ctl.free)
      .error (s2.setCur { s2.cur with st := .parkedReg, awaiting := [], wait := .fetch s1.ctl.free, parkedAt := s.cycle })

/-- The same, going on with a function.
DEDUCED, unsafe: assumption 44. -/
def State.readWord (s : State) (va n dep : Nat) (f : State → Nat → Nat → State) : State :=
  match s.tryWord va n dep with
  | .error t => t
  | .ok (t, v, dp) => f t v dp

/-- Reads the words of n bytes at each address in turn. -/
def State.readWords (s : State) (n dep : Nat) : List Nat → (State → List Nat → Nat → State) → State
  | [], f => f s [] dep
  | va :: r, f => s.readWord va n dep (fun t v dp => t.readWords n dp r (fun u vs dq => f u (v :: vs) dq))

/-! ### Stores (R48, R245) -/

/-- The bytes of a store over an entry's bytes. -/
def putBytes (k off : Nat) (m : Map (Byte × Nat)) : List Byte → Map (Byte × Nat)
  | [] => m
  | b :: r => putBytes k (off + 1) (Map.set m off (b, k)) r

/-- A store of the slot merges into its entry of the gathering buffer, or takes a fresh one; and why an entry that must drain first has
to wait (R48, R161). Of eight entries in use, the oldest gives way to another block.
DESIGN CHOICE, unsafe: assumption 7. DESIGN CHOICE, unsafe: assumption 70. -/
def State.gather (s : State) (k tgt rmod pa va : Nat) (bs : List Byte) : State × Option Stuck :=
  let x := s.slot k
  let core := k / 16
  let block := pa / 256 * 256
  let mine := fun (e : GatherEntry) => e.tgt == tgt && e.rmod == rmod && e.block == block
  let fresh : GatherEntry := { tgt := tgt, rmod := rmod, block := block, ctx := x.ctx, hyp := x.hyp, va := va / 256 * 256,
                               bytes := putBytes k (pa % 256) [] bs, mergedAt := s.cycle }
  let add := fun (t : State) => let c := t.core core; t.setCore core { c with gather := c.gather ++ [fresh] }
  match (s.core core).gather.find? mine with
  | some e =>
    if e.ctx = x.ctx ∧ e.hyp = x.hyp ∧ (numsFrom (pa % 256) bs.length).all (fun o => ((Map.find? e.bytes o).map (fun b => b.2 % 2 ^ 16 == k)).getD true) then
      let e1 := { e with bytes := putBytes k (pa % 256) e.bytes bs, mergedAt := s.cycle }
      let c := s.core core
      let s1 := s.setCore core { c with gather := c.gather.map (fun f => if mine f then e1 else f) }
      if e1.bytes.length = 256 then ((s1.drainThese core mine).1, none) else (s1, none)
    else
      match s.drainThese core mine with
      | (s1, none) => (add s1, none)
      | (s1, some w) => (s1, some w)
  | none =>
    if (s.core core).gather.length < 8 then (add s, none)
    else
      match (s.core core).gather.head? with
      | none => (add s, none)
      | some old =>
        match s.drainThese core (fun e => e == old) with
        | (s1, none) => (add s1, none)
        | (s1, some w) => (s1, some w)

/-- R243 items 6 and 8: what forbids a store to its target. -/
def State.storeBar (s : State) (t : Tgt) (n : Nat) (faddr : Word64) : Option TrapInfo :=
  match t with
  | .sp a =>
    if a % 2 ^ 22 < 0x5000 then some (tDATA_FAULT faddr 0 0)
    else if s.tileOwned a n then some { cause := 8, faddr := faddr }
    else none
  | .hbm _ => none
  | .host _ => if s.cur.hyp = 0 then none else some { cause := 17, faddr := faddr }
  | .remote _ _ => if s.cur.hyp = 0 then none else some { cause := 17, faddr := faddr }

/-- A linear-view write to scratchpad. -/
def State.spStore (s : State) (a : Nat) (bs : List Byte) : State := (s.spWrite a false bs).healSp a bs.length

/-- Puts a store into the buffer; with release order it is performed at once, or leaves for its module, so that no later acquire
passes it (R55(3)); where a log has no room for it the slot waits until it is performed (R161). -/
def State.storeGlobal (s : State) (tgt rmod pa va : Nat) (bs : List Byte) (rel : Bool) (scope : BitVec 3) (f : State → State) : State :=
  match s.gather s.key tgt rmod pa va bs with
  | (s1, some w) => s1.parkWait (.drain w)
  | (s1, none) =>
    if rel then
      match s1.drainCore s1.coreNo with
      | (s2, none) => f (s2.releaseOut (tgt == 2))
      | (s2, some _) => s2.parkWait (.stored scope)
    else f s1

/-- The release store that a slot waits on: once its core's buffer has drained, the slot goes on (R161). -/
def State.storedWake (s : State) (k : Nat) (scope : BitVec 3) : State :=
  match s.drainCore (k / 16) with
  | (s1, some _) => s1
  | (s1, none) =>
    let x := s1.slot k
    let s2 := s1.setSlot k { x with st := .active, wait := .none, pc := x.pc + 4, relOut := x.relOut || s1.postedBy k }
    match x.refused with
    | some st =>
      if scope = 5#3 then
        State.trapSlot (s2.setSlot k { s2.slot k with refused := none }) k { cause := 18, status := st } x.pc.toNat (s2.slot k).pc.toNat
      else s2
    | none => s2

/-- R245: a store to its target; the slot goes on once it has entered the buffer or the port of the window. -/
def State.storeTo (s : State) (t : Tgt) (va : Nat) (bs : List Byte) (rel : Bool) (scope : BitVec 3) : State :=
  let pc := s.cur.pc
  let go := fun (s : State) => s.skip.reportRefused rel scope.toNat pc
  s.release rel rel scope.toNat (fun s => match t with
    | .sp a => go (s.spStore a bs)
    | .hbm pa => s.storeGlobal 0 0 pa va bs rel scope go
    | .host pa => s.storeGlobal 1 0 pa va bs rel scope go
    | .remote r pa => s.storeGlobal 2 r pa va bs rel scope go)

/-- The checks of R243 from alignment on; then the access. -/
def State.access (s : State) (ea n : Nat) (acc : Acc3) (f : Tgt → Word64 → State) : State :=
  let x := s.cur
  let faddr := s.faddrOf x.ctx x.tid ea
  if ea % n ≠ 0 then s.trap (tALIGN_FAULT faddr)
  else match s.resolve s.key ea acc with
    | .trap t => s.trap t
    | .walk a exempt => s.walkWait a ea exempt acc
    | .at_ t => f t faddr

/-- A load instruction (R242 to R244). -/
def loadOp (i : Instr) (d base : BitVec 5) (ta : BitVec 1) (scope : BitVec 3) (order : BitVec 2) (off : BitVec 8) (n : Nat) (conv : Conv)
    (s : State) : Out :=
  operands i [(base, ta)] [d] s (fun s => s.afterAcquires (isAcq order) (fun s =>
    s.access (effAddr (s.gr base) off n) n .read (fun t faddr =>
      s.loadFrom t d n (s.cur.reg base.toNat).dep conv (isAcq order) scope.toNat faddr)))

/-- A store instruction (R245). -/
def storeOp (i : Instr) (d base : BitVec 5) (ta : BitVec 1) (scope : BitVec 3) (order : BitVec 2) (off : BitVec 8) (n : Nat)
    (bytes : Word64 → List Byte) (s : State) : Out :=
  operands i [(base, ta), (d, 0#1)] [] s (fun s => s.afterAcquires false (fun s =>
    s.access (effAddr (s.gr base) off n) n .write (fun t faddr =>
      match s.storeBar t n faddr with
      | some tr => s.trap tr
      | none => s.storeTo t (s.globalVa (effAddr (s.gr base) off n)) (bytes (s.gr d)) (isRel order) scope)))

/-! ### Atomics (R51, R149, R249, R250) -/

/-- One read-modify-write at a local point of coherence: the new value for the old one, none where nothing is written; and what
becomes of the old value. `none` with no state change for a poisoned word. -/
inductive Rmw where
  | done (s : State) (old : Word64)
  | poison
  | waits (s : State) (w : Stuck)
  | far
  deriving DecidableEq

/-- R51: the operation at its point of coherence, under the hypothesis of the issuing slot. Its lookup is debited once its write has been
performed (R112, R160).
DESIGN CHOICE, unsafe: assumption 92. -/
def State.rmw (s : State) (t : Tgt) (va : Nat) (f : Word64 → Option Word64) : Rmw :=
  let x := s.cur
  match t with
  | .sp a =>
    if s.spPoisoned a 8 then .poison
    else
      let old := BitVec.ofNat 64 (leNat (s.spBytes a 8))
      .done (match f old with
        | some v => s.tookFree.spStore a (leBytes 8 v.toNat)
        | none => s.tookFree) old
  | .hbm pa =>
    match s.drainOver 0 0 pa 8 with
    | (s1, some w) => .waits s1 w
    | (s1, none) =>
      if s1.poisoned pa 8 then .poison
      else if s1.lookupWaits (clusterOf s.coreNo) x.ctx x.hyp pa 8 then .waits s1 (.budget x.ctx (clusterOf s.coreNo))
      else
        let old := BitVec.ofNat 64 (leNat (s1.visBytes x.ctx x.hyp pa 8))
        let n := s1.logReads x.ctx x.hyp pa 8
        let s2 := s1.touchDir x.ctx x.hyp pa 8
        match f old with
        | none => .done ((s2.debitReads (clusterOf s.coreNo) x.ctx n).dropLine s.coreNo pa) old
        | some v =>
          match s2.perform (clusterOf s.coreNo) x.ctx x.hyp pa va (leBytes 8 v.toNat) with
          | (s3, some w) => .waits (s3.stuckAt w) w
          | (s3, none) =>
            let s4 := s3.debitReads (clusterOf s.coreNo) x.ctx n
            let c := s4.core s.coreNo
            .done (s4.setCore s.coreNo { c with l1 := l1Store c.l1 x.ctx x.hyp pa (leBytes 8 v.toNat) }) old
  | .host pa =>
    if s.hostFails pa 8 then .poison
    else
      let s1 := (s.drainOver 1 0 pa 8).1
      let old := BitVec.ofNat 64 (leNat (Memory.readBytes s1.host pa 8))
      .done (match f old with
        | some v => { s1 with host := Memory.writeBytes s1.host pa (leBytes 8 v.toNat) }
        | none => s1) old
  | .remote _ _ => .far

/-- An atomic on its target: `sub` is its link sub-op with its payload, `keep` the check of the old value (R149).
DEDUCED, unsafe: assumption 22. -/
def State.amoTo (s : State) (t : Tgt) (va : Nat) (d : BitVec 5) (order : BitVec 2) (scope : Nat) (faddr : Word64) (sub : Option (Nat × List Byte))
    (bad : Word64 → Bool) (f : Word64 → Option Word64) (ret : Word64 → Word64) : State :=
  let pc := s.cur.pc
  let fin := fun (s : State) => (s.acquire (isAcq order) scope).reportRefused (isRel order) scope pc
  s.release (isRel order) (isRel order) scope (fun s =>
    match t, sub with
    | .remote rmod pa, some (op, pay) =>
      let s1 := (s.drainOver 2 rmod pa 8).1
      let s2 := s1.egress (clusterOf s.coreNo) s.cur.ctx
        { op := 3, dst := rmod, src := s.links.lmod, len := pay.length - 1, flags := op * 2, addr := pa, pay := pay }
        (.load s.key d.toNat .raw faddr pc.toNat)
      fin (s2.pend d { reg := d.toNat, src := .link s1.ctl.free, acq := isAcq order, rel := isRel order })
    | .remote _ _, none => s
    | .host _, _ =>
      match s.rmw t va f with
      | .far => s
      | .poison => fin (s.pend d { reg := d.toNat, dep := s.cycle, fault := some (remoteFault 0 faddr pc) })
      | .waits s1 w => s1.parkWait (.drain w)
      | .done s1 old =>
        if bad old then s.trap (tDATA_FAULT faddr 0 0) else fin (s1.pend d { reg := d.toNat, v := ret old, dep := s.cycle })
    | _, _ =>
      match s.rmw t va f with
      | .far => s
      | .poison => s.trap (tDATA_FAULT faddr 6 0)
      | .waits s1 w => s1.parkWait (.drain w)
      | .done s1 old =>
        if bad old then s.trap (tDATA_FAULT faddr 0 0) else fin (s1.pend d { reg := d.toNat, v := ret old, dep := s.cycle }))

/-- R243 item 7: a remote address and no link sub-op. -/
def noSubOp (t : Tgt) (sub : Option (Nat × List Byte)) : Bool :=
  match t, sub with
  | .remote _ _, none => true
  | _, _ => false

/-- The checks of R243 for an atomic; then its effect. -/
def State.amoAccess (s : State) (ea : Nat) (d : BitVec 5) (order : BitVec 2) (scope : Nat) (sub : Option (Nat × List Byte))
    (bad : Word64 → Bool) (f : Word64 → Option Word64) (ret : Word64 → Word64) : State :=
  s.access ea 8 .write (fun t faddr =>
    match s.storeBar t 8 faddr with
    | some tr => s.trap tr
    | none => if noSubOp t sub then s.trap (tDATA_FAULT faddr 5 8) else s.amoTo t (s.globalVa ea) d order scope faddr sub bad f ret)

/-- An atomic of Table 16-3. -/
def amoOp (i : Instr) (d base : BitVec 5) (ta : BitVec 1) (scope : BitVec 3) (order : BitVec 2) (off : BitVec 8) (sub : Option Nat)
    (f : Word64 → Word64 → Word64) (s : State) : Out :=
  operands i [(base, ta), (d, 0#1)] [d] s (fun s => s.afterAcquires (isAcq order) (fun s =>
    let v := s.gr d
    s.amoAccess (effAddr (s.gr base) off 8) d order scope.toNat (sub.map (fun n => (n, leBytes 8 v.toNat))) (fun _ => false)
      (fun old => some (f old v)) id))

end Sys2Proof.Machine
end

