-- ==== Sys2Proof/Machine/Memory.lean ====
section
/-! DEFINITION. Spindle memory instructions: loads, stores, prefetch, fences, atomics and notification words
(R147 to R149, R242 to R250, R268). -/

namespace Sys2Proof.Machine

/-! ### Loads (Table 16-1) -/

def execLdB (d base : BitVec 5) (ta : BitVec 1) (scope : BitVec 3) (order : BitVec 2) (off : BitVec 8) (s : State) : Out :=
  loadOp (.ldB d base ta scope order off) d base ta scope order off 1 (.sext 1) s
def execLdH (d base : BitVec 5) (ta : BitVec 1) (scope : BitVec 3) (order : BitVec 2) (off : BitVec 8) (s : State) : Out :=
  loadOp (.ldH d base ta scope order off) d base ta scope order off 2 (.sext 2) s
def execLdW (d base : BitVec 5) (ta : BitVec 1) (scope : BitVec 3) (order : BitVec 2) (off : BitVec 8) (s : State) : Out :=
  loadOp (.ldW d base ta scope order off) d base ta scope order off 4 (.sext 4) s
def execLdD (d base : BitVec 5) (ta : BitVec 1) (scope : BitVec 3) (order : BitVec 2) (off : BitVec 8) (s : State) : Out :=
  loadOp (.ldD d base ta scope order off) d base ta scope order off 8 .raw s
def execLdzB (d base : BitVec 5) (ta : BitVec 1) (scope : BitVec 3) (order : BitVec 2) (off : BitVec 8) (s : State) : Out :=
  loadOp (.ldzB d base ta scope order off) d base ta scope order off 1 (.zext 1) s
def execLdzH (d base : BitVec 5) (ta : BitVec 1) (scope : BitVec 3) (order : BitVec 2) (off : BitVec 8) (s : State) : Out :=
  loadOp (.ldzH d base ta scope order off) d base ta scope order off 2 (.zext 2) s
def execLdzW (d base : BitVec 5) (ta : BitVec 1) (scope : BitVec 3) (order : BitVec 2) (off : BitVec 8) (s : State) : Out :=
  loadOp (.ldzW d base ta scope order off) d base ta scope order off 4 (.zext 4) s

/-! ### Stores -/

def execStB (d base : BitVec 5) (ta : BitVec 1) (scope : BitVec 3) (order : BitVec 2) (off : BitVec 8) (s : State) : Out :=
  storeOp (.stB d base ta scope order off) d base ta scope order off 1 (fun v => leBytes 1 v.toNat) s
def execStH (d base : BitVec 5) (ta : BitVec 1) (scope : BitVec 3) (order : BitVec 2) (off : BitVec 8) (s : State) : Out :=
  storeOp (.stH d base ta scope order off) d base ta scope order off 2 (fun v => leBytes 2 v.toNat) s
def execStW (d base : BitVec 5) (ta : BitVec 1) (scope : BitVec 3) (order : BitVec 2) (off : BitVec 8) (s : State) : Out :=
  storeOp (.stW d base ta scope order off) d base ta scope order off 4 (fun v => leBytes 4 v.toNat) s
def execStD (d base : BitVec 5) (ta : BitVec 1) (scope : BitVec 3) (order : BitVec 2) (off : BitVec 8) (s : State) : Out :=
  storeOp (.stD d base ta scope order off) d base ta scope order off 8 (fun v => leBytes 8 v.toNat) s

/-! ### Typed access (R246, Table 16-2) -/

/-- How `ldt` converts an element. -/
def typedConv (fmt : Nat) : Conv :=
  if fmt = 8 then .raw
  else if 9 ≤ fmt then .fp fmt
  else if fmt % 2 = 1 then .sext (elemSize fmt)
  else .zext (elemSize fmt)

/-- The bytes that `stt` stores. -/
def typedBytes (fmt : Nat) (v : Word64) : List Byte :=
  if 9 ≤ fmt then leBytes (elemSize fmt) (fcvtCode fp64 (fmtOfCode fmt) v.toNat) else leBytes (elemSize fmt) v.toNat

def execLdt (d base : BitVec 5) (ta : BitVec 1) (scope : BitVec 3) (order : BitVec 2) (off : BitVec 8) (s : State) : Out :=
  operands (.ldt d base ta scope order off) [(base, ta)] [d] s (fun s => s.afterAcquires (isAcq order) (fun s =>
    let p := s.gr base
    let n := elemSize (ptrFmt p)
    if formatBad p true then s.trap tFORMAT_FAULT
    else s.access (effAddr p off n) n .read (fun t faddr =>
      s.loadFrom t d n (s.cur.reg base.toNat).dep (typedConv (ptrFmt p)) (isAcq order) scope.toNat faddr)))

def execStt (d base : BitVec 5) (ta : BitVec 1) (scope : BitVec 3) (order : BitVec 2) (off : BitVec 8) (s : State) : Out :=
  operands (.stt d base ta scope order off) [(base, ta), (d, 0#1)] [] s (fun s => s.afterAcquires false (fun s =>
    let p := s.gr base
    let n := elemSize (ptrFmt p)
    if formatBad p true then s.trap tFORMAT_FAULT
    else s.access (effAddr p off n) n .write (fun t faddr =>
      match s.storeBar t n faddr with
      | some tr => s.trap tr
      | none => s.storeTo t (s.globalVa (effAddr p off n)) (typedBytes (ptrFmt p) (s.gr d)) (isRel order) scope)))

/-! ### Prefetch (R247) -/

/-- A prefetch has its translation: the line is filled; host memory, a poisoned line and one whose versions cannot be looked up now (R112)
drop it. An address on another module becomes a READ (R192), behind the bytes of its block that wait in the core's buffer (R196), whose
answer fills nothing (R247).
DEDUCED, unsafe: assumption 68. -/
def State.prefetched (s : State) (core ctx hyp : Nat) (t : Tgt) : State :=
  let cl := clusterOf core
  match t with
  | .hbm a =>
    let b := a / 32 * 32
    if s.poisoned b 32 || s.lookupWaits cl ctx hyp b 32 then s else (s.lookedUp cl ctx hyp b 32).putLine core ctx hyp a
  | .remote rmod a =>
    (s.drainBlock core rmod a).egress cl ctx { op := 2, dst := rmod, src := s.links.lmod, len := 31, addr := a / 32 * 32 } .discard
  | _ => s

/-- An address that would fault, an absent managed page, and one whose eviction the walk of a prefetch would meet (R178) drop it; a miss
that cannot walk at once waits at the die TLB, or shares the walk that is outstanding there (R172). -/
def State.prefetch (s : State) (va : Nat) : State :=
  let x := s.cur
  let cl := clusterOf s.coreNo
  let go := fun (a : Nat) (exempt : Bool) =>
    match s.look cl x.ctx a .read (!x.hnd) exempt with
    | .ok e pa => s.prefetched s.coreNo x.ctx x.hyp (tgtOf e pa)
    | .miss =>
      if s.walkBusy (dieOf cl) x.ctx a then
        s.askWalk x.ctx a { who := .prefetch s.coreNo x.hyp, cluster := cl, va := a, faddr := 0, acc := .read, user := !x.hnd && !exempt }
      else if ((s.entryOf x.ctx a).bind (fun e => s.pageAt e .evicting)).isSome then s
      else match s.translate cl x.ctx a .read (!x.hnd) exempt with
        | (s1, .ok e pa) => s1.prefetched s.coreNo x.ctx x.hyp (tgtOf e pa)
        | _ => s
    | _ => s
  match windowOf va with
  | .global => go va false
  | .priv off => go (s.arena x.ctx x.tid off) true
  | _ => s

def execPf (base : BitVec 5) (ta : BitVec 1) (off : BitVec 8) (s : State) : Out :=
  operands (.pf base ta off) [(base, ta)] [] s (fun s => (s.prefetch (effAddr (s.gr base) off 32)).skip)

/-! ### Fences and joins (R56, R248) -/

def execFence (scope : BitVec 3) (order : BitVec 2) (s : State) : Out :=
  operands (.fence scope order) [] [] s (fun s =>
    let pc := s.cur.pc
    s.release (isRel order) true scope.toNat (fun s =>
      (s.skip.acquire (isAcq order) scope.toNat).reportRefused true scope.toNat pc))

def execVjoin (a b : BitVec 5) (ta tb : BitVec 1) (s : State) : Out :=
  operands (.vjoin a b ta tb) [(a, ta), (b, tb)] [] s (fun s => s.afterAcquires true (fun s =>
    let va := ptrVa (s.gr a)
    let n := (s.gr b).toNat
    match windowOf va with
    | .scratch off =>
      if off + n ≤ 2 ^ 22 ∧ va % 64 = 0 ∧ n % 64 = 0 then
        ((s.viewJoin (spAddr (clusterOf s.coreNo) off) n).acquire true 2).skip
      else s.trap (tDATA_FAULT (BitVec.ofNat 64 va) 0 0)
    | _ => s.trap (tDATA_FAULT (s.faddrOf s.cur.ctx s.cur.tid va) 0 0)))

/-! ### Atomics (Table 16-3) -/

def execAmoSwap (d base : BitVec 5) (ta : BitVec 1) (scope : BitVec 3) (order : BitVec 2) (off : BitVec 8) (s : State) : Out :=
  amoOp (.amoSwap d base ta scope order off) d base ta scope order off (some 0) (fun _ v => v) s
def execAmoAdd (d base : BitVec 5) (ta : BitVec 1) (scope : BitVec 3) (order : BitVec 2) (off : BitVec 8) (s : State) : Out :=
  amoOp (.amoAdd d base ta scope order off) d base ta scope order off (some 1) (fun o v => o + v) s
def execAmoAnd (d base : BitVec 5) (ta : BitVec 1) (scope : BitVec 3) (order : BitVec 2) (off : BitVec 8) (s : State) : Out :=
  amoOp (.amoAnd d base ta scope order off) d base ta scope order off (some 2) (fun o v => o &&& v) s
def execAmoOr (d base : BitVec 5) (ta : BitVec 1) (scope : BitVec 3) (order : BitVec 2) (off : BitVec 8) (s : State) : Out :=
  amoOp (.amoOr d base ta scope order off) d base ta scope order off (some 3) (fun o v => o ||| v) s
def execAmoXor (d base : BitVec 5) (ta : BitVec 1) (scope : BitVec 3) (order : BitVec 2) (off : BitVec 8) (s : State) : Out :=
  amoOp (.amoXor d base ta scope order off) d base ta scope order off (some 4) (fun o v => o ^^^ v) s
def execAmoMin (d base : BitVec 5) (ta : BitVec 1) (scope : BitVec 3) (order : BitVec 2) (off : BitVec 8) (s : State) : Out :=
  amoOp (.amoMin d base ta scope order off) d base ta scope order off none (fun o v => if o.slt v then o else v) s
def execAmoMax (d base : BitVec 5) (ta : BitVec 1) (scope : BitVec 3) (order : BitVec 2) (off : BitVec 8) (s : State) : Out :=
  amoOp (.amoMax d base ta scope order off) d base ta scope order off none (fun o v => if o.slt v then v else o) s
def execAmoMinz (d base : BitVec 5) (ta : BitVec 1) (scope : BitVec 3) (order : BitVec 2) (off : BitVec 8) (s : State) : Out :=
  amoOp (.amoMinz d base ta scope order off) d base ta scope order off none (fun o v => if o.ult v then o else v) s
def execAmoMaxz (d base : BitVec 5) (ta : BitVec 1) (scope : BitVec 3) (order : BitVec 2) (off : BitVec 8) (s : State) : Out :=
  amoOp (.amoMaxz d base ta scope order off) d base ta scope order off none (fun o v => if o.ult v then v else o) s
/-- The FP64 add rounds by R21 and keeps subnormals (R51). -/
def faddWord (o v : Word64) : Word64 := BitVec.ofNat 64 (faddCode fp64 o.toNat v.toNat)
def execAmoFadd (d base : BitVec 5) (ta : BitVec 1) (scope : BitVec 3) (order : BitVec 2) (off : BitVec 8) (s : State) : Out :=
  amoOp (.amoFadd d base ta scope order off) d base ta scope order off (some 5) faddWord s

/-- R149: a batch word grants nothing. -/
def batchFull (old : Word64) : Bool := old.getLsbD 63 || decide (bitsOf old.toNat 31 16 ≤ bitsOf old.toNat 15 0)
/-- R149: the reserved bits of a batch word are set. -/
def batchBad (old : Word64) : Bool := bitsOf old.toNat 62 32 != 0
/-- R149: the batch word after a claim. -/
def batchNew (old : Word64) : Word64 :=
  let v := old.toNat
  if batchFull old then BitVec.ofNat 64 (setBits v 63 63 1)
  else
    let fill := bitsOf v 15 0 + 1
    let v1 := setBits v 15 0 fill
    BitVec.ofNat 64 (if fill = bitsOf v 31 16 then setBits v1 63 63 1 else v1)
/-- R149: the word returned: old, with bit 63 set if nothing was claimed. -/
def batchRet (old : Word64) : Word64 := if batchFull old then BitVec.ofNat 64 (setBits old.toNat 63 63 1) else old

/-- The batch add: the operand register's value is ignored and the addend is 1 (R149, Table 16-3), on a link too. -/
def execAmoAddBatch (d base : BitVec 5) (ta : BitVec 1) (scope : BitVec 3) (order : BitVec 2) (off : BitVec 8) (s : State) : Out :=
  operands (.amoAddBatch d base ta scope order off) [(base, ta), (d, 0#1)] [d] s (fun s => s.afterAcquires (isAcq order) (fun s =>
    s.amoAccess (effAddr (s.gr base) off 8) d order scope.toNat (some (7, leBytes 8 1)) batchBad
      (fun old => if batchBad old then none else some (batchNew old)) batchRet))

/-- R250: the pair d, d + 1 holds the comparand and the new value.
DEDUCED, unsafe: assumption 22. -/
def execCas (d base : BitVec 5) (ta : BitVec 1) (scope : BitVec 3) (order : BitVec 2) (off : BitVec 8) (s : State) : Out :=
  operands (.cas d base ta scope order off) [(base, ta), (d, 0#1), (d + 1#5, 0#1)] [d] s (fun s => s.afterAcquires (isAcq order) (fun s =>
    let c := s.gr d
    let v := s.gr (d + 1#5)
    s.amoAccess (effAddr (s.gr base) off 8) d order scope.toNat (some (6, leBytes 8 c.toNat ++ leBytes 8 v.toNat)) (fun _ => false)
      (fun old => if old = c then some v else none) id))

/-! ### Notification words (R147, R148, R268) -/

/-- `notify` at its target: an add that is a release at its scope, and at system scope where it goes over a link (R63).
DEDUCED, unsafe: assumption 20. -/
def State.notifyTo (s : State) (t : Tgt) (va : Nat) (v : Word64) (named : Nat) (faddr : Word64) : State :=
  let pc := s.cur.pc
  let scope := match t with
    | .remote _ _ => 5
    | _ => named
  s.release true true scope (fun s =>
    match t with
    | .remote rmod pa =>
      let s1 := s.egress (clusterOf s.coreNo) s.cur.ctx
        { op := 4, dst := rmod, src := s.links.lmod, len := 7, addr := pa, pay := leBytes 8 v.toNat } (.posted [s.key] s.cur.ctx)
      (s1.skip.releaseOut true).reportRefused true scope pc
    | _ =>
      match s.rmw t va (fun old => some (old + v)) with
      | .far => s
      | .poison => s.trap (tDATA_FAULT faddr (match t with
        | .host _ => 5
        | _ => 6) 0)
      | .waits s1 w => s1.parkWait (.drain w)
      | .done s1 _ => s1.skip.reportRefused true scope pc)

def execNotify (d base : BitVec 5) (ta : BitVec 1) (scope : BitVec 3) (off : BitVec 8) (s : State) : Out :=
  operands (.notify d base ta scope off) [(base, ta), (d, 0#1)] [] s (fun s => s.afterAcquires false (fun s =>
    s.access (effAddr (s.gr base) off 8) 8 .write (fun t faddr =>
      match s.storeBar t 8 faddr with
      | some tr => s.trap tr
      | none => s.notifyTo t (s.globalVa (effAddr (s.gr base) off 8)) (s.gr d) scope.toNat faddr)))

/-- What a read of a waited word gives now: a value, an error, or nothing yet (a poll has been sent). -/
inductive Poll where
  | value (v : Nat)
  | fault (reason status : Nat)
  | sent
  deriving DecidableEq, Repr

/-- Reads the word of an `nwait` of slot k at its point of coherence; a word on another module is asked for by a READ, behind the bytes
of its block that wait in the core's buffer (R48, R196). -/
def State.pollWord (s : State) (k : Nat) (t : Tgt) : State × Poll :=
  match t with
  | .sp a => if s.spPoisoned a 8 then (s, .fault 6 0) else (s.tookFree, .value (leNat (s.spBytes a 8)))
  | .hbm pa =>
    let x := s.slot k
    let cl := clusterOf (k / 16)
    if s.poisoned pa 8 then (s, .fault 6 0)
    else if s.lookupWaits cl x.ctx x.hyp pa 8 then (s, .sent)
    else ((s.lookedUp cl x.ctx x.hyp pa 8).dropLine (k / 16) pa, .value (leNat (s.slotBytes k pa 8)))
  | .host pa => if s.hostFails pa 8 then (s, .fault 5 0) else (s, .value (leNat (s.farBytes k 1 0 pa 8 s.host)))
  | .remote rmod pa =>
    if s.allOwn k 2 rmod pa 8 then (s, .value (leNat (s.farBytes k 2 rmod pa 8 [])))
    else
      let s1 := s.drainBlock (k / 16) rmod pa
      (s1.egress (clusterOf (k / 16)) (s.slot k).ctx { op := 2, dst := rmod, src := s.links.lmod, len := 7, addr := pa } (.poll k), .sent)

/-- The `nwait` of slot k completes: its read is an acquire at its scope. -/
def State.nwaitDone (s : State) (k scope : Nat) : State :=
  let x := s.slot k
  let s1 := s.setSlot k { x with st := .active, wait := .none, pc := x.pc + 4 }
  if 2 ≤ scope then s1.dropL1 (k / 16) else s1

/-- The entries that an L2 slice's waiters occupy are at most 256; a further one polls (R148). The wait has just read v. -/
def State.addWaiter (s : State) (k : Nat) (t : Tgt) (v : Nat) : State :=
  match t with
  | .hbm pa =>
    let n := homeSlice pa
    let x := s.slice n
    if x.waiters.length < 256 ∧ ¬ x.waiters.any (fun e => e.who == .slot k) then
      s.setSlice n { x with waiters := x.waiters ++ [{ who := .slot k, pa := pa, seen := v }] }
    else s
  | _ => s

def execNwait (d base : BitVec 5) (ta : BitVec 1) (scope : BitVec 3) (off : BitVec 8) (s : State) : Out :=
  operands (.nwait d base ta scope off) [(base, ta), (d, 0#1)] [] s (fun s => s.afterAcquires true (fun s =>
    let ea := effAddr (s.gr base) off 8
    s.access ea 8 .read (fun t faddr =>
      match s.pollWord s.key t with
      | (s1, .fault r st) => s1.trap (tDATA_FAULT faddr r st)
      | (s1, .sent) => s1.parkWait (.nwait ea (s.gr d) scope.toNat)
      | (s1, .value v) =>
        if (s.gr d).toNat ≤ v then s1.nwaitDone s.key scope.toNat
        else (s1.parkWait (.nwait ea (s.gr d) scope.toNat)).addWaiter s.key t v)))

end Sys2Proof.Machine
end

