-- ==== Sys2Proof/Machine/System.lean ====
section
/-! DEFINITION. System registers, the trap instructions, `ckpt` and `lresume` (R74, R272 to R275, Tables 16-6 and 16-7). -/

namespace Sys2Proof.Machine

/-! ### System registers (Table 16-6) -/

/-- Numbers 15, 26 to 31 and 36 to 63 are unassigned; so is every number above 63. -/
def kAssigned (k : Nat) : Bool := decide (k ≤ 25) && k != 15 || decide (32 ≤ k) && decide (k ≤ 35)

/-- The RO registers. -/
def kReadOnly (k : Nat) : Bool := [0, 1, 2, 3, 9, 12, 14, 25, 32, 34, 35].contains k

/-- The context-wide registers: OVEC, TRAPC, PFXB and LFLAG. -/
def kContextWide (k : Nat) : Bool := [4, 5, 6, 16, 17, 18, 19].contains k

/-- The registers of a context, of a cluster and of the module, as a reader in a cluster sees them. -/
def State.kShared (s : State) (ctx cluster k : Nat) : Nat :=
  let c := s.ctx ctx
  match k with
  | 4 => c.ovec.toNat
  | 5 => c.trapc
  | 6 => c.pfxb.toNat
  | 9 => s.cycle % 2 ^ 64
  | 10 => c.lref
  | 13 => Map.get (s.cluster cluster).scalest ctx 0
  | 16 => bitsOf c.lflag.toNat 63 0
  | 17 => bitsOf c.lflag.toNat 127 64
  | 18 => bitsOf c.lflag.toNat 191 128
  | 19 => bitsOf c.lflag.toNat 255 192
  | 20 => (s.lathe (4 * cluster)).hqStall
  | 21 => (s.lathe (4 * cluster + 1)).hqStall
  | 22 => (s.lathe (4 * cluster + 2)).hqStall
  | 23 => (s.lathe (4 * cluster + 3)).hqStall
  | _ => 0

/-- System register k as the issuing slot reads it. -/
def State.kRead (s : State) (k : Nat) : Nat :=
  let x := s.cur
  let c := s.core s.coreNo
  match k with
  | 0 => x.tid
  | 1 => b2n x.tcls * 2 ^ 7 + b2n x.hnd * 2 ^ 6 + x.ctx
  | 2 => x.hyp
  | 3 => s.key % 16 * 2 ^ 12 + s.coreNo
  | 7 => x.fltsel
  | 8 => (Map.get c.flt x.fltsel {}).v.toNat
  | 11 => x.rfref
  | 12 => b2n (decide ((s.ctx x.ctx).st = .checkpointed)) * 2 + b2n x.ckok
  | 14 => b2n x.barst
  | 24 => c.fifo.stall
  | 25 => c.fifo.entries.length
  | 32 => x.tcause.toNat
  | 33 => x.tpc.toNat
  | 34 => x.taddr.toNat
  | 35 => x.trec.toNat
  | _ => s.kShared x.ctx (clusterOf s.coreNo) k

def execGetk (d : BitVec 5) (k : BitVec 13) (s : State) : Out :=
  operands (.getk d k) [] [d] s (fun s =>
    if kAssigned k.toNat then s.result d [] (BitVec.ofNat 64 (s.kRead k.toNat)) else s.trap tILLEGAL)

/-- The bits of v that are 1 in w become 0. -/
def clearBits (v w : Nat) : Nat := v - (v &&& w)

/-- A value that `setk` refuses for OVEC, TRAPC or PFXB. -/
def State.kBadValue (s : State) (k v : Nat) : Bool :=
  match k with
  | 4 => bitsOf v 63 56 != 0 || bitsOf v 1 0 != 0
  | 5 => s.fenced (clusterOf (v % 2 ^ 12))
  | 6 => bitsOf v 10 0 != 0
  | _ => false

/-- The effect of a write to a register of a context or of a cluster. -/
def State.kWriteShared (s : State) (ctx cluster k v : Nat) : State :=
  let c := s.ctx ctx
  let hq := fun (l : Nat) => let x := s.lathe l
                             s.setLathe l { x with hqStall := clearBits x.hqStall v }
  match k with
  | 4 => s.setCtx ctx { c with ovec := BitVec.ofNat 64 v }
  | 5 => s.setCtx ctx { c with trapc := v % 2 ^ 12 }
  | 6 => s.setCtx ctx { c with pfxb := BitVec.ofNat 64 v }
  | 10 => s.setCtx ctx { c with lref := clearBits c.lref v }
  | 13 =>
    let u := s.cluster cluster
    s.setCluster cluster { u with scalest := Map.set u.scalest ctx (clearBits (Map.get u.scalest ctx 0) v) }
  | 16 => s.setCtx ctx { c with lflag := BitVec.ofNat 256 (clearBits c.lflag.toNat (v % 2 ^ 64)) }
  | 17 => s.setCtx ctx { c with lflag := BitVec.ofNat 256 (clearBits c.lflag.toNat (v % 2 ^ 64 * 2 ^ 64)) }
  | 18 => s.setCtx ctx { c with lflag := BitVec.ofNat 256 (clearBits c.lflag.toNat (v % 2 ^ 64 * 2 ^ 128)) }
  | 19 => s.setCtx ctx { c with lflag := BitVec.ofNat 256 (clearBits c.lflag.toNat (v % 2 ^ 64 * 2 ^ 192)) }
  | 20 => hq (4 * cluster)
  | 21 => hq (4 * cluster + 1)
  | 22 => hq (4 * cluster + 2)
  | 23 => hq (4 * cluster + 3)
  | _ => s

/-- The effect of a write that is allowed, by the issuing slot. -/
def State.kWrite (s : State) (k v : Nat) : State :=
  let x := s.cur
  let c := s.core s.coreNo
  match k with
  | 7 => s.setCur { x with fltsel := v % 2 ^ 5 }
  | 8 => s.setCore s.coreNo { c with flt := Map.set c.flt x.fltsel { v := BitVec.ofNat 64 v, tag := some x.ctx } }
  | 11 => s.setCur { x with rfref := clearBits x.rfref v }
  | 24 => s.setCore s.coreNo { c with fifo := { c.fifo with stall := clearBits c.fifo.stall v } }
  | 33 => s.setCur { x with tpc := BitVec.ofNat 64 v }
  | _ => s.kWriteShared x.ctx (clusterOf s.coreNo) k v

def execSetk (a : BitVec 5) (ta : BitVec 1) (k : BitVec 13) (s : State) : Out :=
  operands (.setk a ta k) [(a, ta)] [] s (fun s =>
    let n := k.toNat
    let v := (s.gr a).toNat
    if !kAssigned n || kReadOnly n || (n == 33 && !s.cur.hnd) || (kContextWide n && s.cur.hyp != 0) || s.kBadValue n v then
      s.trap tILLEGAL
    else (s.kWrite n v).skip)

/-! ### Traps (R273) -/

/-- The codes of `trap` and `brk` that TCAUSE holds (Table 20-2).
DEDUCED, unsafe: assumption 23. -/
def execTrap (code : BitVec 13) (s : State) : Out :=
  operands (.trap code) [] [] s (fun s =>
    s.trapSlot s.key { cause := 19, code := code.toNat % 2 ^ 12 } s.cur.pc.toNat (s.cur.pc + 4).toNat)

def execBrk (code : BitVec 13) (s : State) : Out :=
  operands (.brk code) [] [] s (fun s => s.trap { cause := 20, code := code.toNat % 2 ^ 12 })

def execEret (s : State) : Out :=
  operands .eret [] [] s (fun s => if s.cur.hnd then s.returnFromTrap else s.trap tILLEGAL)

def execNop (s : State) : Out := operands .nop [] [] s State.skip

/-! ### `lresume` (R274, R334) -/

/-- The Lathe that a core word names: die, cluster, Lathe number. -/
def latheOfWord (w : Nat) : Nat := 4 * bitsOf w 11 4 + bitsOf w 1 0

/-- The conditions under which the issuing slot may resume a Lathe. -/
def State.mayResume (s : State) (a : Nat) : Bool :=
  let x := s.cur
  let w4 := s.hbmRead (x.trec.toNat + 32) 8
  let l := s.lathe (latheOfWord a)
  x.hnd && x.trec != 0 && !x.recRetired && w4.testBit 63 && w4.testBit 12 && bitsOf w4 27 22 == x.ctx && bitsOf w4 11 0 == a
  && decide (a < 2 ^ 12) && bitsOf a 3 2 == 0
  && (l.trap.map (fun (t : LTrap) => t.written && t.rec_.ctx == x.ctx)).getD false

/-- The Lathe refetches its resume bundle, no earlier than the delay of the bundle before it allows (R276); an exponent that was
delivered before the trap is not delivered again (R306). -/
def State.resumeLathe (s : State) (n : Nat) (resume : Nat) (delivered : Bool) : State :=
  let l := s.lathe n
  s.setLathe n { l with trap := none, pc := codePc resume, eDone := delivered, nextIssue := max (s.cycle + 1) l.nextIssue }

def execLresume (a : BitVec 5) (ta : BitVec 1) (s : State) : Out :=
  operands (.lresume a ta) [(a, ta)] [] s (fun s =>
    let w := (s.gr a).toNat
    if s.mayResume w then
      let rec_ := s.cur.trec.toNat
      let s1 := s.resumeLathe (latheOfWord w) (s.hbmRead (rec_ + 24) 8) ((s.hbmRead rec_ 8).testBit 30)
      let s2 := s1.setCur { s1.cur with recRetired := true }.advance
      s2.retireRecord s.cur.ctx rec_
    else s.trap tILLEGAL)

/-! ### `ckpt` (R74, R275) -/

/-- An entry of a live-set record that traps ILLEGAL. -/
def State.liveBad (s : State) (ctx : Nat) (w : Nat) : Bool :=
  let kind := bitsOf w 63 62
  bitsOf w 61 32 != 0 || decide (2 ≤ kind)
  || (kind == 1 && (bitsOf w 31 18 != 0 || !s.boundIn (bitsOf w 17 8) ctx))

/-- An entry that names a tile whose handle is not current. -/
def State.liveStale (s : State) (ctx : Nat) (w : Nat) : Bool := bitsOf w 63 62 == 0 && !s.handleCurrent ctx (bitsOf w 31 0)

/-- The first failing entry of the live-set record decides the trap. -/
def State.liveTrap (s : State) (ctx : Nat) : List Nat → Option TrapInfo
  | [] => none
  | w :: r =>
    if s.liveBad ctx w then some tILLEGAL
    else if s.liveStale ctx w then some (causeTrap 9)
    else s.liveTrap ctx r

/-- The direct write is the completion of a transfer that had been accepted by then. -/
def DirectWrite.acceptedBy (w : DirectWrite) (before : Nat) : Bool :=
  match w.from_ with
  | .chuck _ _ accepted => decide (accepted ≤ before)
  | .slot _ _ => false

/-- Transfers of a context accepted by the time that a count of free values names, and not complete; one whose completion is a direct
write is complete once that write has reached its core (R326). -/
def State.xfersBefore (s : State) (ctx before : Nat) : Bool :=
  s.clusters.any (fun p => p.2.xfers.any (fun x => x.req.ctx == ctx && x.accepted && decide (x.id ≤ before)))
  || s.cores.any (fun p => p.2.directWrites.any (fun w => w.ctx == ctx && w.acceptedBy before))

/-- R275 steps 3 and 4, for slot k. -/
def State.ckptDone (s : State) (k : Nat) (live : List Word64) (lapses : Nat) : State :=
  let x := s.slot k
  let c := s.ctx x.ctx
  let ok := decide (c.lapses = lapses) && (c.st == .running || c.st == .checkpointed)
  let s1 := s.setSlot k { x with st := .active, wait := .none, pc := x.pc + 4, ckok := ok }
  if ok then s1.setCtx x.ctx { c with st := .checkpointed, live := live } else s1

def execCkpt (a : BitVec 5) (ta : BitVec 1) (s : State) : Out :=
  operands (.ckpt a ta) [(a, ta)] [] s (fun s => s.afterAcquires false (fun s =>
    let va := (s.gr a).toNat % 2 ^ 56
    if s.cur.hyp ≠ 0 then s.trap tILLEGAL
    else if va % 8 ≠ 0 then s.trap (tALIGN_FAULT (s.faddrOf s.cur.ctx s.cur.tid va))
    else s.readWord va 8 (s.cur.reg a.toNat).dep (fun s w0 dep =>
      if bitsOf w0 63 8 ≠ 0 then s.dropFetched.trap tILLEGAL
      else s.readWords 8 dep ((numsFrom 1 (w0 % 2 ^ 8)).map (fun i => va + 8 * i)) (fun s ws _ =>
        let t := s.dropFetched
        match t.liveTrap t.cur.ctx ws with
        | some tr => t.trap tr
        | none =>
          let live := ws.map (BitVec.ofNat 64)
          let lapses := (t.ctx t.cur.ctx).lapses
          if t.xfersBefore t.cur.ctx t.ctl.free then t.parkWait (.ckpt live lapses t.ctl.free)
          else t.ckptDone t.key live lapses))))

end Sys2Proof.Machine
end

