-- ==== Sys2Proof/Machine/Thread.lean ====
section
/-! DEFINITION. Threads, messages, migration, tasks and the `launch` instruction (R92, R96, R97, R104, R114 to R120, R251 to R259). -/

namespace Sys2Proof.Machine

/-! ### Slots and identities (R114, R118) -/

/-- The FREE slots of a core.
DEDUCED, unsafe: assumption 11. -/
def State.freeSlots (s : State) (core : Nat) : List Nat := (numsFrom (16 * core) 16).filter (fun k => decide ((s.slot k).st = .free))

/-- A free slot of a core: which of several is a free choice.
DESIGN CHOICE, safe: assumption 2. DEDUCED, unsafe: assumption 11. -/
def State.pickSlot (s : State) (core : Nat) : Option Nat :=
  match s.freeSlots core with
  | [] => none
  | [k] => some k
  | ks => some (ks.getD (Config.freeNat s.ctl.free % ks.length) 0)

/-- R114: the lowest free identity of a cluster's share.
DEDUCED, unsafe: assumption 11. -/
def State.newTid (s : State) (ctx cluster : Nat) : Option Nat :=
  firstFrom (fun t => !(s.ctx ctx).tids.contains t) (256 * cluster) 256

/-- A thread claims a slot (Table 8-2), and its identity is in use. What its registers hold is no older than the claim (R47). -/
def State.startThread (s : State) (k : Nat) (x : Slot) : State :=
  let c := s.ctx x.ctx
  let tids := if c.tids.contains x.tid then c.tids else x.tid :: c.tids
  let y : Slot := { x with first := true, regs := x.regs.map (fun (p : Nat × Reg) => (p.1, { p.2 with dep := s.cycle })) }
  (s.tookFree.setSlot k { y with st := if x.st = .free then .active else x.st }).setCtx x.ctx { c with tids := tids }

/-- g0, g1, … from a list of registers; the others are EMPTY. -/
def regsOf (g : List Reg) : Map Reg := ((numsFrom 0 g.length).zip g).filter (fun p => p.2.st != .empty)

/-- g0 to g7 of a slot. -/
def Slot.payload (x : Slot) : List Reg := (numsFrom 0 8).map x.reg

/-- g0 to g7, or fewer, as the implicit sources of an instruction (R115). -/
def implicit (n : Nat) : List Src := (numsFrom 0 n).map (fun r => (BitVec.ofNat 5 r, 0#1))

/-! ### Registers of other threads -/

def execPurge (d : BitVec 5) (s : State) : Out :=
  operands (.purge d) [] [d] s (fun s => (s.setCur (s.cur.emptyReg d.toNat)).skip)

/-- The reserved bits of the word that names the target of an `rfill`.
DEDUCED, unsafe: assumption 21. -/
def rfillBad (a : Nat) : Bool := bitsOf a 63 37 != 0 || bitsOf a 31 28 != 0

def execRfill (a b : BitVec 5) (ta tb : BitVec 1) (s : State) : Out :=
  operands (.rfill a b ta tb) [(a, ta), (b, tb)] [] s (fun s =>
    let w := (s.gr a).toNat
    let core := bitsOf w 27 16
    if rfillBad w || s.fenced (clusterOf core) then s.trap tILLEGAL
    else s.release true true 4 (fun s =>
      let c := s.core core
      let dw : DirectWrite := { tid := bitsOf w 15 0, ctx := s.cur.ctx, reg := bitsOf w 36 32, v := s.gr b, from_ := .slot s.key s.cur.tid }
      (s.setCore core { c with directWrites := c.directWrites ++ [dw] }).skip))

/-! ### Messages (R96, R97, R253) -/

/-- Messages for the context are held in the ring, from the start of a save until the context runs again (R76).
DEDUCED, unsafe: assumption 46. -/
def State.held (s : State) (ctx : Nat) : Bool :=
  (s.ctx ctx).away || (match (s.ctx ctx).st with
    | .saving | .saved | .restoring => true
    | _ => false)

/-- The entries of a context's ring at a core that are taken, or kept for messages on their way whose senders have not waited (R97). -/
def State.ringHeld (s : State) (core ctx : Nat) : Nat :=
  ((s.core core).ring.filter (fun m => m.ctx == ctx)).length + (s.mesh.filter (fun p => p.1 == core && p.2.ctx == ctx && p.2.room)).length

/-- A message to a core may find its context's ring there full: room is kept for those already on their way (R97, Table 6-1).
DEDUCED, unsafe: assumption 64. -/
def State.noRoom (s : State) (core ctx : Nat) : Bool :=
  let c := s.core core
  !c.meshWait.isEmpty || decide (512 ≤ s.ringHeld core ctx)

def execSend (a : BitVec 5) (ta : BitVec 1) (s : State) : Out :=
  operands (.send a ta) ((a, ta) :: implicit 8) [] s (fun s =>
    let w := (s.gr a).toNat
    let core := bitsOf w 63 52
    if s.fenced (clusterOf core) then s.trap tILLEGAL
    else if w % 4 ≠ 0 then s.trap (tALIGN_FAULT (BitVec.ofNat 64 (w % 2 ^ 52)))
    else s.release true true 4 (fun s =>
      let x := s.cur
      let m : Msg := { kind := .send, pc := w % 2 ^ 52, ctx := x.ctx, hyp := x.hyp, tcls := x.tcls, g := x.payload, launch := x.launch,
                       src := .thread x.ctx x.tid }
      if s.noRoom core x.ctx then ((s.post core m).skip).parkWait (.send s.ctl.free) else (s.post core { m with room := true }).skip))

/-! ### Migration (R120, R254) -/

/-- The thread has left its slot; its identity stays in use. -/
def State.vacate (s : State) (k : Nat) : State :=
  let x := s.slot k
  State.afterThread (((s.forgetWriter k).leaveWaits k).setSlot k {}) (k / 16) x.ctx x.launch

/-- R120 steps 3 to 5, once no fill is outstanding. A trap that has fallen due in the slot goes with the thread (R331).
DEDUCED, unsafe: assumption 64. DESIGN CHOICE, unsafe: assumption 94. -/
def State.depart (s : State) (k dst : Nat) : State :=
  match s.drainCore (k / 16) with
  | (s1, some _) => s1
  | (s1, none) =>
    let x := s1.slot k
    if s1.postedBy k then s1
    else
    let m : Msg := { kind := .migrate, pc := (x.pc + 4).toNat, ctx := x.ctx, hyp := x.hyp, tid := x.tid, tcls := x.tcls, mig := x.mig,
                     g := x.payload, launch := x.launch, src := .thread x.ctx x.tid, late := x.late }
    if s1.noRoom dst x.ctx then (s1.post dst m).setSlot k { x with wait := .send s1.ctl.free }
    else (s1.post dst { m with room := true }).vacate k

/-- R120 steps 1 and 2.
DEDUCED, unsafe: assumption 21. -/
def State.migrateTo (s : State) (dst : Nat) : State :=
  let s1 := s.setCur { s.cur with st := .migrating, wait := .migrating dst, awaiting := [], parkedAt := s.cycle }
  if s1.cur.fills.isEmpty then s1.depart s.key dst else s1

/-- The home core word of a physical address of module HBM (R254). -/
def homeCore (pa : Nat) : Nat :=
  let n := homeSlice pa
  n / 512 * 2 ^ 10 + n % 512 / 8 * 2 ^ 4 + n % 8 * 2 + bitsOf pa 7 7

/-- The word of `mhome` for an address of the issuing slot. -/
def State.homeWord (s : State) (va : Nat) (f : State → Nat → State) : State :=
  match s.resolve s.key va .read with
  | .trap t => s.trap t
  | .walk a exempt => s.walkWait a va exempt .read
  | .at_ (.hbm pa) => f s (homeCore pa)
  | .at_ _ => f s (2 ^ 63 + s.coreNo)

/-- `migrate` to a home core word. -/
def State.migrateHome (s : State) (w : Nat) : State :=
  let dst := if w.testBit 63 then s.coreNo else w % 2 ^ 12
  if s.fenced (clusterOf dst) then s.trap tILLEGAL else s.migrateTo dst

def execMigrate (a : BitVec 5) (ta : BitVec 1) (s : State) : Out :=
  operands (.migrate a ta) ((a, ta) :: implicit 8) [] s (fun s =>
    if s.cur.hnd then s.trap tILLEGAL
    else if s.cur.mig then s.homeWord (ptrVa (s.gr a)) State.migrateHome
    else if bitsOf (s.gr a).toNat 63 12 ≠ 0 then s.trap tILLEGAL
    else s.migrateHome (s.gr a).toNat)

def execMhome (d a : BitVec 5) (ta : BitVec 1) (s : State) : Out :=
  operands (.mhome d a ta) [(a, ta)] [d] s (fun s =>
    s.homeWord (ptrVa (s.gr a)) (fun s w => s.result d [a] (BitVec.ofNat 64 w)))

def execSetmig (a : BitVec 5) (ta : BitVec 1) (s : State) : Out :=
  operands (.setmig a ta) [(a, ta)] [] s (fun s =>
    let w := (s.gr a).toNat
    if 2 ≤ w then s.trap tILLEGAL else (s.setCur { s.cur with mig := w.testBit 0 }).skip)

/-! ### `spawn`, `exit`, `yield` (R255, R256) -/

/-- A message waits at a core (R96); one of a context that is being saved is passed over (R76). -/
def State.messageWaits (s : State) (core : Nat) : Bool :=
  let c := s.core core
  (c.inbox ++ c.ring ++ c.meshWait).any (fun m => !s.held m.ctx)

/-- The slot and the identity that a new thread of the issuing core would take. -/
def State.spawnRoom (s : State) : Option (Nat × Nat) :=
  if s.messageWaits s.coreNo then none
  else match s.pickSlot s.coreNo, s.newTid s.cur.ctx (clusterOf s.coreNo) with
    | some k, some t => some (k, t)
    | _, _ => none

def execSpawn (d a : BitVec 5) (ta : BitVec 1) (s : State) : Out :=
  operands (.spawn d a ta) ((a, ta) :: implicit 8) [d] s (fun s =>
    let w := (s.gr a).toNat
    if w % 4 ≠ 0 then s.trap (tALIGN_FAULT (BitVec.ofNat 64 (w % 2 ^ 56)))
    else s.release true true 1 (fun s =>
      let x := s.cur
      match s.spawnRoom with
      | none => s.result d (a :: (implicit 8).map (·.1)) (BitVec.allOnes 64)
      | some (k, t) =>
        (s.startThread k { pc := BitVec.ofNat 56 w, regs := regsOf x.payload, hyp := x.hyp, tid := t, ctx := x.ctx, tcls := x.tcls,
                           launch := x.launch }).result d (a :: (implicit 8).map (·.1)) (BitVec.ofNat 64 t)))

def execExit (s : State) : Out := operands .exit [] [] s (fun s => s.endThread s.key)

/-- The slots of the core that count for a `yield`: ACTIVE ones, other than its own.
DEDUCED, unsafe: assumption 53. -/
def State.yieldOthers (s : State) : List Nat :=
  (numsFrom (16 * s.coreNo) 16).filter (fun k => k != s.key && decide ((s.slot k).st = .active) && !(s.slot k).leaving)

def execYield (s : State) : Out :=
  operands .yield [] [] s (fun s => (s.setCur { s.cur with yieldUntil := s.cycle + 16, yieldFor := s.yieldOthers }).skip)

/-! ### Tasks (R257, R258) -/

def execDqpush (d a : BitVec 5) (ta : BitVec 1) (s : State) : Out :=
  operands (.dqpush d a ta) ((a, ta) :: implicit 7) [d] s (fun s =>
    let w := (s.gr a).toNat
    if w % 4 ≠ 0 then s.trap (tALIGN_FAULT (BitVec.ofNat 64 (w % 2 ^ 56)))
    else if !s.ownsWindow then s.trap tCONST_MISS
    else s.release true true 3 (fun s =>
      let x := s.cur
      let c := s.core s.coreNo
      if 128 ≤ c.deque.length then s.result d (a :: (implicit 7).map (·.1)) 0
      else
        let t : TaskRec := { launch := x.launch.getD 0, tcls := x.tcls,
                             task := .task x.hyp (w % 2 ^ 56) ((numsFrom 0 7).map x.g) }
        ((s.setCore s.coreNo { c with deque := t :: c.deque }).wakeThieves (s.coreNo / 1024)).result d (a :: (implicit 7).map (·.1)) 1))

/-- g0, g1, … of a slot become FULL with a list of values. -/
def Slot.fillList (x : Slot) (r : Nat) : List Word64 → Slot
  | [] => x
  | v :: vs => Slot.fillList (x.fillReg r v 0) (r + 1) vs

def execDqpop (d : BitVec 5) (s : State) : Out :=
  operands (.dqpop d) [] (d :: (implicit 7).map (·.1)) s (fun s =>
    if !s.ownsWindow then s.trap tCONST_MISS
    else
      let c := s.core s.coreNo
      match c.deque with
      | ⟨_, .task h pc pay, _⟩ :: rest =>
        if h = s.cur.hyp then
          let s1 := s.setCore s.coreNo { c with deque := rest }
          let s2 := (s1.setCur (s1.cur.fillList 0 pay)).acquire true 3
          s2.result d [] (BitVec.ofNat 64 (pc + 1))
        else s.result d [] 0
      | _ => s.result d [] 0)

/-! ### `launch` (R92, R259) -/

def execLaunch (a b : BitVec 5) (ta tb : BitVec 1) (s : State) : Out :=
  operands (.launch a b ta tb) [(a, ta), (b, tb)] [] s (fun s =>
    let r := (s.gr a).toNat
    let q := (s.gr b).toNat
    if 15 < q ∨ s.cur.hyp ≠ 0 then s.trap tILLEGAL
    else if bitsOf r 63 56 ≠ 0 ∨ bitsOf r 5 0 ≠ 0 then s.trap (tALIGN_FAULT (BitVec.ofNat 64 r))
    else s.release true true 4 (fun s =>
      let c := s.ctx s.cur.ctx
      let lq := Map.get c.queues q {}
      if lq.entries.length < 64 ∧ lq.parked = [] then
        let lq' := { lq with entries := lq.entries ++ [{ rec_ := BitVec.ofNat 64 r, stamp := s.cycle }] }
        (s.setCtx s.cur.ctx { c with queues := Map.set c.queues q lq' }).skip
      else
        let lq' := { lq with parked := lq.parked ++ [(s.key, BitVec.ofNat 64 r)] }
        (s.setCtx s.cur.ctx { c with queues := Map.set c.queues q lq' }).parkWait (.launch q)))

/-- An entry of a launch queue has freed: the launchers that parked first are admitted, and their slots go on (R92). -/
def State.admitLaunchers (s : State) (ctx q : Nat) : Nat → State
  | 0 => s
  | n + 1 =>
    let c := s.ctx ctx
    let lq := Map.get c.queues q {}
    match lq.parked with
    | [] => s
    | (k, r) :: rest =>
      if lq.entries.length < 64 then
        let lq' := { lq with entries := lq.entries ++ [{ rec_ := r, stamp := s.cycle }], parked := rest }
        let x := s.slot k
        let s1 := s.setSlot k { x with st := .active, wait := .none, pc := x.pc + 4 }
        State.admitLaunchers (s1.setCtx ctx { c with queues := Map.set c.queues q lq' }) ctx q n
      else s

end Sys2Proof.Machine
end

