-- ==== Sys2Proof/Machine/Tile.lean ====
section
/-! DEFINITION. Spindle tile and handle-queue instructions (R125 to R134, R260 to R263). -/

namespace Sys2Proof.Machine

def tTILE_STALE : TrapInfo := causeTrap 9
def tTILE_SHAPE : TrapInfo := causeTrap 10

/-! ### `topen` (R126, R127, R260) -/

/-- The fields of an open word. -/
def openChime (b : Nat) : Nat := bitsOf b 24 0
def openLathe (b : Nat) : Nat := bitsOf b 26 25
def openTarget (b : Nat) : Nat := bitsOf b 34 27

/-- The first check that refuses an open (R260 step 2, R126, R127); the rules give no order among these.
DESIGN CHOICE, unsafe: assumption 101. -/
def State.openTrap (s : State) (cluster ctx b w0 w1 : Nat) : Option TrapInfo :=
  let h := parseShape w0 w1
  if bitsOf b 63 35 ≠ 0 ∨ 2 ^ 24 < openChime b ∨ ¬ s.boundIn (4 * cluster + openLathe b) ctx then some tILLEGAL
  else if h.rows < openTarget b then some tTILE_SHAPE
  else if formatBad (BitVec.ofNat 64 w0) false then some tFORMAT_FAULT
  else if s.shapeBad cluster w0 w1 then some tTILE_SHAPE
  else none

/-- The lowest FREE index of a cluster's tile table. -/
def State.freeIndex (s : State) (cluster : Nat) : Option Nat := firstFrom (fun i => decide ((s.tile (tileKey cluster i)).st = .free)) 0 1024

/-- R127: the tile is claimed; bytes of the footprint that no port write has written read as zero. -/
def State.openTile (s : State) (cluster ctx b w0 w1 i : Nat) : State :=
  let h := parseShape w0 w1
  let t := tileKey cluster i
  let lo := spAddr cluster h.base
  let hi := spAddr cluster h.stop
  let x : Tile := { st := .open_, gen := (s.tile t).gen, ctx := ctx, shape := h, lathe := openLathe b, target := openTarget b,
                    chimeAt := if openChime b = 0 then none else some (s.cycle + openChime b) }
  let s1 := (s.setTile t x).healSp lo (hi - lo)
  { s1 with sp := s1.sp.filter (fun p => !(decide (lo ≤ p.1) && decide (p.1 < hi)))
            views := s1.views.filter (fun p => !(decide (lo ≤ p.1) && decide (p.1 < hi))) }

def execTopen (d a b : BitVec 5) (ta tb : BitVec 1) (s : State) : Out :=
  operands (.topen d a b ta tb) [(a, ta), (b, tb)] [d] s (fun s => s.afterAcquires false (fun s =>
    let va := ptrVa (s.gr a)
    let cl := clusterOf s.coreNo
    if va % 16 ≠ 0 then s.trap (tALIGN_FAULT (s.faddrOf s.cur.ctx s.cur.tid va))
    else s.readWord va 16 (s.cur.reg a.toNat).dep (fun s r _ =>
      let t := s.dropFetched
      let w0 := r % 2 ^ 64
      let w1 := r / 2 ^ 64
      match t.openTrap cl t.cur.ctx (t.gr b).toNat w0 w1 with
      | some tr => t.trap tr
      | none =>
        match t.freeIndex cl with
        | none => t.trap (causeTrap 13)
        | some i =>
          ((t.lapse t.cur.ctx).openTile cl t.cur.ctx (t.gr b).toNat w0 w1 i).result d [a, b]
            (BitVec.ofNat 64 (t.handleAt (tileKey cl i))))))

/-! ### `tst`, `tsr`, `tsq` (R131, R192, R261, Table 16-4) -/

/-- A position word that traps ILLEGAL. -/
def posBad (b : Nat) (mayFin : Bool) : Bool :=
  bitsOf b 63 27 != 0 || b.testBit 7 || decide (3 < bitsOf b 25 23) || (b.testBit 26 && !mayFin)

/-- A remote handle (Table 13-6). -/
def State.remoteHandle (s : State) (h : Nat) : Bool :=
  h.testBit 32 && bitsOf h 47 33 == 0 && decide (bitsOf h 63 54 ≤ 575) && bitsOf h 63 54 != s.links.lmod

/-- The TILEWR packet of a write into a remote tile (R191). -/
def State.tilewrPacket (s : State) (h row off : Nat) (bs : List Byte) (fin : Bool) : Packet :=
  { op := 5, dst := bitsOf h 63 54, src := s.links.lmod, ctx := bitsOf h 53 48, len := bs.length - 1, flags := b2n fin,
    addr := off * 2 ^ 41 + row * 2 ^ 32 + h % 2 ^ 32, pay := bs }

/-- The checks of a tile store; then its write, local or remote. -/
def State.tileStore (s : State) (a b d : BitVec 5) (mayFin : Bool) (here : State → Nat → Nat → Nat → List Byte → State)
    (remote : State → Nat → Nat → Nat → List Byte → State) : State :=
  let h := (s.gr a).toNat
  let p := (s.gr b).toNat
  let n := 2 ^ bitsOf p 25 23
  let bs := leBytes n (s.gr d).toNat
  if posBad p mayFin then s.trap tILLEGAL
  else if bitsOf p 22 8 % n ≠ 0 then s.trap (tALIGN_FAULT 0)
  else if h < 2 ^ 32 then here s h (bitsOf p 6 0) (bitsOf p 22 8) bs
  else if s.remoteHandle h then remote s h (bitsOf p 6 0) (bitsOf p 22 8) bs
  else s.trap tTILE_STALE

/-- `tst` and `tsr`: they complete when the port decides; a remote write is posted. -/
def tileStoreOp (i : Instr) (d a b : BitVec 5) (ta tb : BitVec 1) (fin : Bool) (s : State) : Out :=
  operands i [(a, ta), (b, tb), (d, 0#1)] [] s (fun s => s.afterAcquires false (fun s =>
    s.tileStore a b d false
      (fun s h row off bs =>
        match s.portWrite (some (clusterOf s.coreNo)) s.cur.ctx h row off bs fin false with
        | (s1, 0) => s1.skip
        | (s1, code) => s1.trap (portTrap code))
      (fun s h row off bs =>
        (s.egress (clusterOf s.coreNo) s.cur.ctx (s.tilewrPacket h row off bs fin) (.posted [s.key] s.cur.ctx)).skip)))

def execTst (d a b : BitVec 5) (ta tb : BitVec 1) (s : State) : Out := tileStoreOp (.tst d a b ta tb) d a b ta tb false s
def execTsr (d a b : BitVec 5) (ta tb : BitVec 1) (s : State) : Out := tileStoreOp (.tsr d a b ta tb) d a b ta tb true s

def execTsq (d a b : BitVec 5) (ta tb : BitVec 1) (s : State) : Out :=
  operands (.tsq d a b ta tb) [(a, ta), (b, tb), (d, 0#1)] [d] s (fun s => s.afterAcquires false (fun s =>
    let fin := (s.gr b).getLsbD 26
    s.tileStore a b d true
      (fun s h row off bs =>
        let r := s.portWrite (some (clusterOf s.coreNo)) s.cur.ctx h row off bs fin false
        r.1.pend d { reg := d.toNat, v := BitVec.ofNat 64 r.2, dep := s.cur.depOf [a.toNat, b.toNat, d.toNat] })
      (fun s h row off bs =>
        let s1 := s.egress (clusterOf s.coreNo) s.cur.ctx (s.tilewrPacket h row off bs fin) (.tsq s.key d.toNat s.cur.ctx)
        s1.pend d { reg := d.toNat, dep := s.cur.depOf [a.toNat, b.toNat, d.toNat], src := .link s.ctl.free })))

/-! ### `seal`, `tret`, `tinfo` (R133, R134, R262) -/

/-- The tile that a register names for the issuing slot; otherwise it traps TILE_STALE. -/
def State.withTile (s : State) (a : BitVec 5) (f : State → Nat → State) : State :=
  match s.tileFor (clusterOf s.coreNo) s.cur.ctx (s.gr a).toNat with
  | none => s.trap tTILE_STALE
  | some t => f s t

/-- The status word after an explicit seal. A tile whose Lathe is released is returned at once (R89), and the spec states no state
field for it: a free value from 1 to 4. No cycle of its chime remains (Table 9-4).
DEDUCED, unsafe: assumption 41. -/
def State.sealStatus (s before : State) (t : Nat) : Nat :=
  if (s.tile t).st = .free then
    setBits (setBits (before.tileStatus t false) 63 61 (1 + Config.freeNat s.ctl.free % 4)) 24 0 0
  else s.tileStatus t false

def execSeal (d a : BitVec 5) (ta : BitVec 1) (s : State) : Out :=
  operands (.seal d a ta) [(a, ta)] [d] s (fun s => s.afterAcquires false (fun s => s.withTile a (fun s _ =>
    s.release true true 2 (fun s => s.withTile a (fun s t =>
      if s.portBusy t then s.parkWait (.port s.cycle)
      else if (s.tile t).st = .open_ then
        let s1 := (s.lapse s.cur.ctx).sealTile t false
        s1.tookFree.result d [a] (BitVec.ofNat 64 (s1.sealStatus s t))
      else s.result d [a] (BitVec.ofNat 64 (s.tileStatus t true)))))))

/-- A tile is returned (Table 9-3); while it is being read, the slot waits (R304).
DEDUCED, unsafe: assumption 26. -/
def State.tretTile (s : State) (t : Nat) : State :=
  let x := s.tile t
  if x.st = .held ∨ x.st = .queued then s.trap tTILE_STATE
  else if s.tileRead t then (s.setTile t { x with returnLate := true }).parkWait (.tret t x.gen)
  else if x.returnLate then (s.tretLate t).trap tTILE_STALE
  else (s.freeTile t).skip

def execTret (a : BitVec 5) (ta : BitVec 1) (s : State) : Out :=
  operands (.tret a ta) [(a, ta)] [] s (fun s => s.withTile a State.tretTile)

/-- R134: the selector is checked before the handle.
DESIGN CHOICE, unsafe: assumption 101. -/
def execTinfo (d a b : BitVec 5) (ta tb : BitVec 1) (s : State) : Out :=
  operands (.tinfo d a b ta tb) [(a, ta), (b, tb)] [d] s (fun s =>
    if 2 < (s.gr b).toNat then s.trap tILLEGAL
    else s.withTile a (fun s t =>
      let v := (s.tile t).valid.toNat
      s.result d [a, b] (BitVec.ofNat 64 (match (s.gr b).toNat with
        | 0 => s.tileStatus t false
        | 1 => bitsOf v 63 0
        | _ => bitsOf v 127 64))))

/-! ### `qpost`, `qeos` (R89, R95, R263) -/

/-- A post of the issuing slot to Lathe w of its cluster: it is checked, waits while the queue is full, and goes on when it may
enter. A Lathe that was released while the post waited takes nothing. -/
def State.postOp (s : State) (w : Nat) (enter released : State → Nat → State) : State :=
  let l := 4 * clusterOf s.coreNo + w % 4
  let waited := (s.lathe l).hqWait.contains (.slot s.key)
  let bound : Bool := s.cur.launch.isSome && (s.lathe l).bound == s.cur.launch
  if 4 ≤ w ∨ (!bound && !waited) then s.trap tILLEGAL
  else s.release true true 2 (fun s =>
    if !bound then released (s.hqDone l (.slot s.key)) l
    else if s.hqOpen l (.slot s.key) then enter s l
    else (s.hqWaits l (.slot s.key)).parkWait .again)

/-- The tile's handle is posted: it is checked when the entry is written. -/
def State.postTile (s : State) (b : BitVec 5) (l : Nat) : State :=
  match s.tileFor (clusterOf s.coreNo) s.cur.ctx (s.gr b).toNat with
  | none => (s.hqDone l (.slot s.key)).trap tTILE_STALE
  | some t =>
    if (s.tile t).st ≠ .consumed then (s.hqDone l (.slot s.key)).trap tTILE_STATE
    else ((s.queueTile t l).hqDone l (.slot s.key)).skip

def execQpost (a b : BitVec 5) (ta tb : BitVec 1) (s : State) : Out :=
  operands (.qpost a b ta tb) [(a, ta), (b, tb)] [] s (fun s => s.afterAcquires false (fun s =>
    s.postOp (s.gr a).toNat (fun s l => s.postTile b l) (fun s _ => s.withTile b State.tretTile)))

def execQeos (a : BitVec 5) (ta : BitVec 1) (s : State) : Out :=
  operands (.qeos a ta) [(a, ta)] [] s (fun s => s.afterAcquires false (fun s =>
    s.postOp (s.gr a).toNat (fun s l => ((s.hqPush l { eos := true }).hqDone l (.slot s.key)).skip) (fun s _ => s.skip)))

end Sys2Proof.Machine
end

