-- ==== Sys2Proof/Machine/Barriers.lean ====
section
/-! DEFINITION. Named barriers and their reductions (R139 to R146, R267). -/

namespace Sys2Proof.Machine

/-! ### Barrier words (R140, Table 10-1) -/

def barScope (w : Nat) : Nat := bitsOf w 63 61
def barIndex (w : Nat) : Nat := bitsOf w 60 53
def barCount (w : Nat) : Nat := bitsOf w 52 37
def barOp (w : Nat) : Nat := bitsOf w 36 34
def barKm1 (w : Nat) : Nat := bitsOf w 33 30
def barLayer (w : Nat) : Nat := bitsOf w 29 22

/-- A barrier word that traps ILLEGAL, whatever the instruction. -/
def barBad (w : Nat) : Bool :=
  bitsOf w 21 0 != 0 || decide (barScope w < 2) || decide (4 < barScope w) || (barScope w != 3 && decide (63 < barIndex w))
  || barCount w == 0 || (barKm1 w != 0 && barOp w != 7)

/-- The barrier that a word names for an agent of a core (R139). -/
def State.barrier (s : State) (core w : Nat) : Barrier :=
  match barScope w with
  | 2 => Map.get (s.cluster (clusterOf core)).barriers (barIndex w) {}
  | 3 => Map.get (Map.get s.dieBarriers (core / 1024) []) (barIndex w) {}
  | _ => Map.get s.modBarriers (barIndex w) {}

def State.setBarrier (s : State) (core w : Nat) (b : Barrier) : State :=
  match barScope w with
  | 2 =>
    let c := s.cluster (clusterOf core)
    s.setCluster (clusterOf core) { c with barriers := Map.set c.barriers (barIndex w) b }
  | 3 =>
    { s with dieBarriers := Map.set s.dieBarriers (core / 1024) (Map.set (Map.get s.dieBarriers (core / 1024) []) (barIndex w) b) }
  | _ => { s with modBarriers := Map.set s.modBarriers (barIndex w) b }

/-- Two agents' words name one barrier. -/
def sameBarrier (core w core' w' : Nat) : Bool :=
  barScope w == barScope w' && barIndex w == barIndex w' &&
  (match barScope w with
   | 2 => clusterOf core == clusterOf core'
   | 3 => core / 1024 == core' / 1024
   | _ => true)

/-! ### Reductions (R144 to R146) -/

/-- The result of isum, imin, imax, fsum, fmin, fmax over the contributions. -/
def barReduce (op : Nat) : List Word64 → Word64
  | [] => 0
  | v :: vs =>
    match op with
    | 1 => vs.foldl (· + ·) v
    | 2 => vs.foldl (fun a b => if b.slt a then b else a) v
    | 3 => vs.foldl (fun a b => if a.slt b then b else a) v
    | 4 => BitVec.ofNat 64 (ofFV fp64 (FV.sum ((v :: vs).map (fun x => toFV fp64 x.toNat))))
    | 5 => BitVec.ofNat 64 (vs.foldl (fun a b => fminCode fp64 a b.toNat) (if isNanCode fp64 v.toNat then fp64.nan else v.toNat))
    | _ => BitVec.ofNat 64 (vs.foldl (fun a b => fmaxCode fp64 a b.toNat) (if isNanCode fp64 v.toNat then fp64.nan else v.toNat))

/-- The score of a candidate: a NaN below every number, infinities saturated, −0 and +0 equal. -/
def topkScore (v : Word64) : Int :=
  let c := bitsOf v.toNat 63 32
  if isNanCode fp32 c then -(2 ^ 32)
  else
    let m := if c % 2 ^ 31 = 0x7F800000 then c - 1 else c
    valueKey fp32 m

/-- R146: candidate a is ranked before candidate b; each is a position number and a contribution. -/
def topkBefore (a b : Nat × Word64) : Bool :=
  let ka := topkScore a.2
  let kb := topkScore b.2
  let ia := bitsOf a.2.toNat 31 0
  let ib := bitsOf b.2.toNat 31 0
  decide (kb < ka) || (ka == kb && (decide (ia < ib) || (ia == ib && decide (a.1 < b.1))))

/-- What an arrival receives when its phase completes. Candidates that are equal in score, id and position receive one rank.
DESIGN CHOICE, unsafe: assumption 90. -/
def barResult (op km1 : Nat) (contribs : List (Nat × Nat × Word64)) (mine : Nat × Nat × Word64) : Word64 :=
  if op = 7 then
    let r := (contribs.filter (fun c => topkBefore c.2 mine.2)).length
    if r ≤ km1 then BitVec.ofNat 64 r else BitVec.allOnes 64
  else barReduce op (contribs.map (fun c => c.2.2))

/-- R145: the contributions set the layer's flag. -/
def barFlags (op : Nat) (contribs : List (Nat × Nat × Word64)) : Bool :=
  if op = 7 then contribs.any (fun c => isNanCode fp32 (bitsOf c.2.2.toNat 63 32))
  else decide (4 ≤ op) && contribs.any (fun c => isNanCode fp64 c.2.2.toNat)

/-! ### The completion of a phase (R141 to R143) -/

/-- The wait of slot k is met: its instruction completes, and is an acquire at a scope. -/
def State.waitDone (s : State) (k scope : Nat) (f : Slot → Slot) : State :=
  let x := s.slot k
  let s1 := s.setSlot k (f { x with st := .active, wait := .none, pc := x.pc + 4 })
  if 2 ≤ scope then s1.dropL1 (k / 16) else s1

/-- A slot that waits on the barrier goes on (Table 8-3). -/
def State.barWake (s : State) (core w : Nat) (results : List Word64) (k : Nat) : State :=
  let x := s.slot k
  if x.st ≠ .parkedWait then s
  else match x.wait with
    | .bar w' token =>
      if sameBarrier core w (k / 16) w'.toNat && bitsOf token.toNat 15 0 != (s.barrier core w).phase then
        s.waitDone k (barScope w) id
      else s
    | .barRed w' phase d arrival dep =>
      if sameBarrier core w (k / 16) w'.toNat && (phase + 1) % 2 ^ 16 == (s.barrier core w).phase then
        match results[arrival]? with
        | some v => s.waitDone k (barScope w) (fun y => y.fillReg d v dep)
        | none => s
      else s
    | _ => s

/-- The N-th arrival: the phase completes, flags are set, results and waits are delivered. Results of slots that do not wait here
now (spilled or saved ones) are kept for them. -/
def State.barComplete (s : State) (core w ctx : Nat) (contribs : List (Nat × Nat × Word64)) : State :=
  let b := s.barrier core w
  let results := contribs.map (fun c => barResult (barOp w) (barKm1 w) contribs c)
  let kept := (s.ctx ctx).spilled.filterMap (fun p => match p.2.rest.wait with
    | .barRed w' phase _ arrival _ =>
      if sameBarrier core w p.2.core w'.toNat && phase == b.phase then
        (results[arrival]?).map (fun v => ({ ctx := ctx, tid := p.1, phase := phase, arrival := arrival, result := v } : BarDone))
      else none
    | _ => none)
  let s1 := s.setBarrier core w { phase := (b.phase + 1) % 2 ^ 16, done := b.done ++ kept }
  let c := s1.ctx ctx
  let s2 := if barFlags (barOp w) contribs then s1.setCtx ctx { c with lflag := c.lflag ||| BitVec.ofNat 256 (2 ^ barLayer w) } else s1
  (s2.slots.map (·.1)).foldl (fun t k => t.barWake core w results k) s2

/-- What an arrival meets. -/
inductive Arrival where
  | illegal
  | busy (phase : Nat)
  | counted (s : State) (phase arrival : Nat) (result : Option Word64)
  deriving DecidableEq, Repr

/-- R141, Table 10-2: an arrival of the issuing slot, with its contribution if it reduces. -/
def State.arrive (s : State) (w : Nat) (v : Option Word64) : Arrival :=
  let x := s.cur
  let b := s.barrier s.coreNo w
  let mine := v.map (fun v => (x.tid, s.key, v))
  let contribs := (if b.owner.isSome then b.contribs else []) ++ mine.toList
  let n := (if b.owner.isSome then b.arrivals else 0) + 1
  match b.owner with
  | some c =>
    if c ≠ x.ctx then .busy b.phase
    else if b.count ≠ barCount w ∨ b.op ≠ barOp w ∨ b.km1 ≠ barKm1 w ∨ b.layer ≠ barLayer w then .illegal
    else if n = barCount w then
      .counted (s.barComplete s.coreNo w x.ctx contribs) b.phase (contribs.length - 1) (mine.map (fun m => barResult (barOp w) (barKm1 w) contribs m))
    else .counted (s.setBarrier s.coreNo w { b with arrivals := n, contribs := contribs }) b.phase (contribs.length - 1) none
  | none =>
    if barCount w = 1 then
      .counted (s.barComplete s.coreNo w x.ctx contribs) b.phase (contribs.length - 1) (mine.map (fun m => barResult (barOp w) (barKm1 w) contribs m))
    else
      .counted (s.setBarrier s.coreNo w { b with owner := some x.ctx, count := barCount w, op := barOp w, km1 := barKm1 w,
                                                 layer := barLayer w, arrivals := 1, contribs := contribs }) b.phase (contribs.length - 1) none

/-! ### The instructions (Table 16-5) -/

def execBarArrive (d a : BitVec 5) (ta : BitVec 1) (s : State) : Out :=
  operands (.barArrive d a ta) [(a, ta)] [d] s (fun s => s.afterAcquires false (fun s =>
    let w := (s.gr a).toNat
    if barBad w || barOp w != 0 then s.trap tILLEGAL
    else s.release true true (barScope w) (fun s =>
      match s.arrive w none with
      | .illegal => s.trap tILLEGAL
      | .busy p => s.result d [a] (BitVec.ofNat 64 (2 ^ 63 + p))
      | .counted t p _ _ => t.result d [a] (BitVec.ofNat 64 p))))

def execBarWait (a b : BitVec 5) (ta tb : BitVec 1) (s : State) : Out :=
  operands (.barWait a b ta tb) [(a, ta), (b, tb)] [] s (fun s => s.afterAcquires true (fun s =>
    let w := (s.gr a).toNat
    let token := s.gr b
    if barBad w || token.getLsbD 63 then s.trap tILLEGAL
    else if bitsOf token.toNat 15 0 ≠ (s.barrier s.coreNo w).phase then (s.acquire true (barScope w)).skip
    else s.parkWait (.bar (s.gr a) token)))

def execBarRed (d a b : BitVec 5) (ta tb : BitVec 1) (s : State) : Out :=
  operands (.barRed d a b ta tb) [(a, ta), (b, tb)] [d] s (fun s => s.afterAcquires true (fun s =>
    let w := (s.gr a).toNat
    if barBad w || barOp w == 0 then s.trap tILLEGAL
    else s.release true true (barScope w) (fun s =>
      match s.arrive w (some (s.gr b)) with
      | .illegal => s.trap tILLEGAL
      | .busy p => (s.setCur { s.cur with barst := true }).result d [a, b] (BitVec.ofNat 64 (2 ^ 63 + p))
      | .counted t p n r =>
        let t1 := t.setCur { t.cur with barst := false }
        match r with
        | some v => (t1.acquire true (barScope w)).result d [a, b] v
        | none => t1.parkWait (.barRed (s.gr a) p d.toNat n (s.cur.depOf [a.toNat, b.toNat])))))

end Sys2Proof.Machine
end

