-- ==== Sys2Proof/Machine/Hypothesis.lean ====
section
/-! DEFINITION. Hypotheses: `hnew`, `hset`, `hconf`, `href`, the hypothesis unit, the toll, and orphans (R122, R150 to R156, R163). -/

namespace Sys2Proof.Machine

/-! ### The instructions (R152 to R154, R269) -/

/-- The operand word of a hypothesis instruction is an id.
DEDUCED, unsafe: assumption 21. -/
def hypWordBad (w : Nat) : Bool := bitsOf w 63 8 != 0

def execHnew (d a : BitVec 5) (ta : BitVec 1) (s : State) : Out :=
  operands (.hnew d a ta) [(a, ta)] [d] s (fun s =>
    let w := (s.gr a).toNat
    if hypWordBad w then s.trap tILLEGAL
    else
      let c := s.ctx s.cur.ctx
      let s1 := s.tookFree.setCtx s.cur.ctx { c with unitQ := c.unitQ ++ [.hnew s.key s.ctl.free w] }
      s1.pend d { reg := d.toNat, dep := s.cur.depOf [a.toNat], src := .hypUnit s.ctl.free })

/-- `hset` (R153): the checks in order. An id that is neither LIVE nor of a descendant traps HYP_STATE.
DEDUCED, unsafe: assumption 21. -/
def execHset (a : BitVec 5) (ta : BitVec 1) (s : State) : Out :=
  operands (.hset a ta) [(a, ta)] [] s (fun s =>
    let w := (s.gr a).toNat
    let c := s.ctx s.cur.ctx
    if hypWordBad w then s.trap tILLEGAL
    else if (c.hyp w).st ≠ .live then s.trap (causeTrap 16)
    else if !c.isUnder w s.cur.hyp then s.trap tILLEGAL
    else (s.setCur { s.cur with hyp := w }).skip)

/-- A resolve of the issuing slot: it drains, and parks until the unit replies.
DEDUCED, unsafe: assumption 60. -/
def resolveOp (i : Instr) (a : BitVec 5) (ta : BitVec 1) (confirm : Bool) (s : State) : Out :=
  operands i [(a, ta)] [] s (fun s => s.afterAcquires false (fun s =>
    let w := (s.gr a).toNat
    if hypWordBad w || s.cur.hyp != 0 || (!confirm && w == 0) then s.trap tILLEGAL
    else s.release true true 4 (fun s =>
      let c := s.ctx s.cur.ctx
      let r := if confirm then HypReq.hconf s.key w else HypReq.href s.key w
      (s.setCtx s.cur.ctx { c with unitQ := c.unitQ ++ [r] }).parkWait (.resolve w confirm))))

def execHconf (a : BitVec 5) (ta : BitVec 1) (s : State) : Out := resolveOp (.hconf a ta) a ta true s
def execHref (a : BitVec 5) (ta : BitVec 1) (s : State) : Out := resolveOp (.href a ta) a ta false s

/-! ### The unit takes up a request (R150, Table 11-1) -/

/-- The LIVE nodes at or under an id. -/
def Ctx.liveUnder (c : Ctx) (id : Nat) : List Nat :=
  ((c.hyps.map (·.1)).filter (fun h => decide ((c.hyp h).st = .live) && (c.chain h).contains id))

/-- The ids that a confirm of an id refutes: the root's other children and their subtrees. -/
def Ctx.siblingsOf (c : Ctx) (id : Nat) : List Nat :=
  (c.hyps.map (·.1)).filter (fun h => decide ((c.hyp h).st = .live) && (c.chain h).getLast? != some id)

/-- A node's record replaced. -/
def Ctx.setHyp (c : Ctx) (id : Nat) (h : Hyp) : Ctx := { c with hyps := Map.set c.hyps id h }

/-- Nodes become REFUTING, with the heir of each. -/
def Ctx.refuting (c : Ctx) (ids : List Nat) (heir : Nat) : Ctx :=
  ids.foldl (fun c h => c.setHyp h { c.hyp h with st := .refuting, heir := heir }) c

/-- R152: the result of an `hnew`, and the tree after it. -/
def Ctx.newHyp (c : Ctx) (parent : Nat) : Ctx × Nat :=
  let badParent := decide ((c.hyp parent).st ≠ .live)
  match firstFrom (fun h => decide ((c.hyp h).st = .free)) 1 255 with
  | none => (c, 2 ^ 8 + b2n badParent * 2 ^ 9)
  | some h => if badParent then (c, 2 ^ 9) else (c.setHyp h { st := .live, parent := parent }, h)

/-- The unit's reply reaches the slot that waits for it. -/
def State.hypReply (s : State) (k stamp v : Nat) : State :=
  let x := s.slot k
  s.setSlot k { x with fills := x.fills.map (fun f =>
    if f.src = .hypUnit stamp then { f with src := .ready, v := BitVec.ofNat 64 v } else f) }

/-- The resolve of slot k has no more to do: the instruction completes. -/
def State.resolveEnds (s : State) (k : Nat) : State :=
  let x := s.slot k
  match x.st, x.wait with
  | .parkedWait, .resolve _ _ => (s.setSlot k { x with st := .active, wait := .none, pc := x.pc + 4 }).dropL1 (k / 16)
  | _, _ => s

/-- The thread that a toll was for goes on behind its instruction: from its slot or, where it was spilled meanwhile, from its record
(R121, R154). -/
def State.tollEnds (s : State) (ctx : Nat) (t : Toll) : State :=
  let waits := fun (x : Slot) => match x.wait with
    | .resolve _ _ => x.ctx == ctx && x.tid == t.tid
    | _ => false
  match List.find? (fun (p : Nat × Slot) => p.2.st == .parkedWait && waits p.2) s.slots, Map.find? (s.ctx ctx).spilled t.tid with
  | some (k, _), _ => s.resolveEnds k
  | none, some p =>
    let c := s.ctx ctx
    match p.rest.wait with
    | .resolve _ _ =>
      (s.hbmWriteNat p.addr 8 (s.hbmRead p.addr 8 + 4)).setCtx ctx
        { c with spilled := Map.set c.spilled t.tid { p with rest := { p.rest with wait := .none } } }
    | _ => s
  | none, none => s

/-- R154: a confirm that finds its id gone traps at the reply. -/
def State.resolveTraps (s : State) (k : Nat) : State :=
  let x := s.slot k
  match x.st, x.wait with
  | .parkedWait, .resolve _ _ => s.trapSlot k (causeTrap 16) x.pc.toNat x.pc.toNat
  | _, _ => s

/-- The next request of a context is taken up against the tree as it stands. -/
def State.takeUp (s : State) (ctx : Nat) : State :=
  let c := s.ctx ctx
  match c.unitQ with
  | [] => s
  | .hnew k stamp parent :: rest =>
    let r := c.newHyp parent
    State.lapse ((s.setCtx ctx { r.1 with unitQ := rest }).hypReply k stamp r.2) ctx
  | .hconf k id :: rest =>
    if c.toll.isSome then s
    else
      let c1 := { c with unitQ := rest }
      if id ≠ 0 ∧ (c.hyp id).st = .live ∧ (c.hyp id).parent = 0 then
        let others := c.siblingsOf id
        let c2 := (c1.refuting others 0).setHyp id { c.hyp id with st := .merging, heir := 0 }
        s.setCtx ctx { c2 with toll := some { confirm := some id, refute := others, slot := k, tid := (s.slot k).tid } }
      else (s.setCtx ctx c1).resolveTraps k
  | .href k id :: rest =>
    if c.toll.isSome then s
    else
      let c1 := { c with unitQ := rest }
      if id ≠ 0 ∧ (c.hyp id).st = .live then
        let ids := c.liveUnder id
        s.setCtx ctx { c1.refuting ids (c.hyp id).parent with toll := some { confirm := none, refute := ids, slot := k, tid := (s.slot k).tid } }
      else (s.setCtx ctx c1).resolveEnds k

def execHypothesisTakeUp (s : State) : Out := .next (s.takeUp s.ctl.at_.ctx)

/-! ### The toll (R155, R156, R163) -/

/-- Entries of the gathering buffers under refuted ids are discarded, and L1 lines under resolved ids are invalidated. -/
def State.tollCores (s : State) (ctx : Nat) (refute resolved : List Nat) : State :=
  { s with cores := s.cores.map (fun p => (p.1, { p.2 with
      gather := p.2.gather.filter (fun e => !(e.ctx == ctx && refute.contains e.hyp))
      l1 := p.2.l1.filter (fun l => !(l.ctx == ctx && resolved.contains l.hyp)) })) }

/-- A slot is orphaned: it leaves its wait (Table 8-3).
DEDUCED, unsafe: assumption 29. -/
def State.orphanSlot (s : State) (k : Nat) : State :=
  let s1 := (s.releasePfx k).leaveWaits k
  s1.setSlot k { s1.slot k with st := .orphaned, wait := .none, awaiting := [], late := [], fetched := [], looked := [] }

/-- A slot under a confirmed id goes on under 0: so does a `cpush` of it that waits for its FIFO (R264), and its core drops the lines that
may be older than what the slot wrote under the id (R53). -/
def State.confirmSlot (s : State) (k : Nat) : State :=
  let x := s.slot k
  let c := s.core (k / 16)
  (s.setSlot k { x with hyp := 0 }).setCore (k / 16)
    { c with l1 := [], fifo := { c.fifo with waiting := c.fifo.waiting.map (fun p => if p.1 = k then (p.1, { p.2 with hyp := 0 }) else p) } }

/-- What a toll does to the slots of its context: a confirmed hypothesis becomes 0, a refuted one orphans.
DEDUCED, unsafe: assumption 32. -/
def State.tollSlots (s : State) (ctx : Nat) (t : Toll) : State :=
  (s.slots.map (·.1)).foldl (fun s k =>
    let x := s.slot k
    if x.ctx ≠ ctx ∨ x.st = .free then s
    else if t.confirm = some x.hyp then s.confirmSlot k
    else if t.refute.contains x.hyp && (x.st == .active || x.st == .parkedReg || x.st == .parkedWait) && !x.leaving then s.orphanSlot k
    else s) s

/-- The gathering buffers drain what they hold under an id. -/
def State.drainHyp (s : State) (ctx id : Nat) : State :=
  s.cores.foldl (fun t p => (t.drainThese p.1 (fun e => e.ctx == ctx && e.hyp == id)).1) s

/-- The tree after a toll: the confirmed id RETIRED, its children under the root, refuted ids DEAD.
DEDUCED, unsafe: assumption 32. -/
def Ctx.afterToll (c : Ctx) (t : Toll) : Ctx :=
  { c with
    toll := none
    hyps := c.hyps.map (fun p =>
      if some p.1 = t.confirm then (p.1, { p.2 with st := .retired, heir := 0 })
      else if t.refute.contains p.1 then (p.1, { p.2 with st := .dead })
      else if t.confirm.isSome && some p.2.parent == t.confirm && decide (p.2.st ≠ .free) then (p.1, { p.2 with parent := 0 })
      else p) }

/-- Before the slices resolve, the stores of the confirmed id reach them, and the log records of the resolved ids are paid for, in the
cluster of the slot that resolves (R112, R160); whether all are. No version changes its place for a reader (R58).
DESIGN CHOICE, unsafe: assumption 92. -/
def State.tollPays (s : State) (ctx : Nat) (t : Toll) : State × Toll × Bool :=
  let s1 := match t.confirm with
    | some id => s.drainHyp ctx id
    | none => s
  let r := s1.payRecords (clusterOf (t.slot / 16)) ctx (t.refute ++ t.confirm.toList) t.paid
  (r.1, { t with paid := r.2.1 }, r.2.2)

/-- What the slices and cores do in a toll: the versions of the confirmed id are merged, those of the refuted ids dropped, all at once. -/
def State.tollSlices (s : State) (ctx : Nat) (t : Toll) : State :=
  let s1 := match t.confirm with
    | some id => s.resolveVersions ctx id true
    | none => s
  t.refute.foldl (fun r id => r.resolveVersions ctx id false) (s1.tollCores ctx t.refute (t.refute ++ t.confirm.toList))

/-- Every core, slice and Chuck has acknowledged: the toll completes. It waits while a log record of a resolved id cannot be read (R112),
and until then no read sees any of it (R58). A buffered store that finds no log record is performed after the merge, as a committed write.
DEDUCED, unsafe: assumption 32. -/
def State.tollDone (s : State) (ctx : Nat) : State :=
  match (s.ctx ctx).toll with
  | none => s
  | some t =>
    match s.tollPays ctx t with
    | (s1, u, false) => s1.setCtx ctx { s1.ctx ctx with toll := some u }
    | (s1, _, true) =>
      let s2 := s1.tollSlices ctx t
      let s3 := s2.setCtx ctx ((s2.ctx ctx).afterToll t)
      let s4 := match t.confirm with
        | some id => s3.drainHyp ctx id
        | none => s3
      State.reapHyps ((s4.tollSlots ctx t).tollEnds ctx t) ctx

def execTollComplete (s : State) : Out := .next (s.tollDone s.ctl.at_.ctx)

/-! ### Orphans (R122, R156) -/

/-- The slot restarts at the orphan vector under the heir; without one it frees, and its identity is released.
DEDUCED, unsafe: assumption 29. -/
def State.orphanRestarts (s : State) (k : Nat) : State :=
  let x := s.slot k
  if x.st ≠ .orphaned then s
  else
    let c := s.ctx x.ctx
    if c.ovec = 0 then s.endThread k
    else
      let keep := fun (r : Nat) => decide (1 ≤ r) && decide (r ≤ 7)
      let y := { x with st := .active, pc := codePc c.ovec.toNat, hyp := c.heirOf x.hyp
                        regs := x.regs.filter (fun p => keep p.1), fills := x.fills.filter (fun f => keep f.reg) }
      (s.setSlot k (y.fillReg 0 (BitVec.ofNat 64 x.hyp) 0)).reapHyps x.ctx

def execOrphanRestart (s : State) : Out := .next (s.orphanRestarts (16 * s.ctl.at_.core + s.ctl.at_.slot))

end Sys2Proof.Machine
end

