-- ==== Sys2Proof/Machine/PageUnit.lean ====
section
/-! DEFINITION. Walks that complete, TLB invalidation, managed pages and the pin table (R169, R172 to R179). -/

namespace Sys2Proof.Machine

/-! ### Lathe traps (R333 step 1) -/

/-- The core word of a Lathe: Lathe number in bits [1:0]. -/
def latheWord (l : Nat) : Nat := l / 4 * 16 + l % 4

/-- A post of a Lathe that waits for a queue is withdrawn: its bundle has trapped (R279), and those behind it move up. -/
def State.dropPosts (s : State) (l : Nat) : State :=
  (numsFrom (l / 4 * 4) 4).foldl (fun u d => if (u.lathe d).hqWait.contains (.lathe l) then u.hqDone d (.lathe l) else u) s

/-- A Lathe stops at a bundle; its record is written when it has drained (LATHE_TRAP). -/
def State.latheStops (s : State) (l : Nat) (t : TrapInfo) (slotNo pc resume : Nat) (sdel : Bool) : State :=
  let x := s.lathe l
  let r : TrapRec := { cause := tcauseWord t.cause t.code t.status t.reason slotNo true sdel false, pc := pc, faddr := t.faddr,
                       resume := resume, ctx := x.ctx, lathe := true, src := latheWord l, cycle := s.cycle }
  match x.trap with
  | none => State.dropPosts (s.setLathe l { x with trap := some { rec_ := r }, walk := none, atGang := false }) l
  | some _ => s

/-! ### The pin table (R179) -/

/-- The key of a page in a pin table: its level and its base.
DEDUCED, unsafe: assumption 38. -/
def pinKey (lvl va : Nat) : Nat := lvl * 2 ^ 37 + va / 2 ^ pageLog lvl

/-- An address in the page that a key of a pin table names. -/
def pinnedVa (key : Nat) : Nat := key % 2 ^ 37 * 2 ^ pageLog (key / 2 ^ 37)

/-- The pin count of the page whose entry lies at an address: the sum, over all contexts, of the entries of pin tables that name it.
DEDUCED, unsafe: assumption 38. -/
def State.pinCount (s : State) (entry : Nat) : Nat :=
  s.ctxs.foldl (fun n p => p.2.pins.foldl (fun n q => if s.entryOf p.1 (pinnedVa q.1) = some entry then n + q.2 else n) n) 0

/-- A pin is applied: none where the table has no room (PIN_FULL). -/
def State.pinAdd (s : State) (ctx key : Nat) : Option State :=
  let c := s.ctx ctx
  match Map.find? c.pins key with
  | none => if c.pins.length < 4096 then some (s.setCtx ctx { c with pins := Map.set c.pins key 1 }) else none
  | some n => if n < 65535 then some (s.setCtx ctx { c with pins := Map.set c.pins key (n + 1) }) else none

/-! ### Managed pages (R174 to R178) -/

/-- The page unit's record of a page. -/
def State.mpage (s : State) (ctx vpn : Nat) : MPage := Map.get (s.ctx ctx).pages vpn {}

def State.setMpage (s : State) (ctx vpn : Nat) (p : MPage) : State :=
  let c := s.ctx ctx
  s.setCtx ctx { c with pages := Map.set c.pages vpn p }

/-- The entry of a resident managed page: its address and value. -/
def State.residentEntry (s : State) (ctx vpn : Nat) : Option (Nat × Nat) :=
  match s.walk ctx (vpn * 2 ^ 19) with
  | .leaf 3 a e => if pteM e then some (a, e) else none
  | _ => none

/-- The words of a table of n entries that are not zero: index and value. -/
def tableWords (m : Memory) (table n : Nat) : List (Nat × Nat) :=
  let cells := m.filter (fun p => decide (table ≤ p.1) && decide (p.1 < table + 8 * n))
  let idxs := cells.foldl (fun (l : List Nat) p => let i := (p.1 - table) / 8
                                                   if l.contains i then l else l ++ [i]) []
  idxs.map (fun i => (i, leNat (Memory.readBytes m (table + 8 * i) 8)))

/-- The managed resident pages under a table: page number, entry address, entry. -/
def State.residentUnder (s : State) : List Nat → Nat → Nat → List (Nat × Nat × Nat)
  | [], _, _ => []
  | lvl :: rest, table, base =>
    (tableWords s.hbm table (if lvl = 0 then 1024 else 512)).flatMap (fun p =>
      let vpn := base + p.1 * 2 ^ (9 * (3 - lvl))
      if !pteV p.2 || s.pteMalformed lvl p.2 then []
      else if pteLeaf p.2 then (if lvl == 3 && pteM p.2 then [(vpn, table + 8 * p.1, p.2)] else [])
      else s.residentUnder rest (ptePa p.2) vpn)

/-- A store that is buffered for bytes of a frame is a reference in flight (R177). -/
def State.buffered (s : State) (pa n : Nat) : Bool :=
  s.cores.any (fun p => p.2.gather.any (fun e => e.tgt == 0 && decide (e.block < pa + n) && decide (pa < e.block + 256)))

/-- Reads that have been translated through a frame and not yet performed: the stripes of a sweep (R325), the source of a mark job. -/
def State.readsAhead (s : State) (pa n : Nat) : Bool :=
  s.clusters.any (fun p => p.2.xfers.any (fun x => x.stripes.any (fun a => decide (a < pa + n) && decide (pa < a + 256))))
  || (match s.mgmt.mkJob with
    | some j => j.pages.any (fun p => decide (p.2 < pa + n) && decide (pa < p.2 + 2 ^ 19))
    | none => false)

/-- R177: the page may be a victim.
DEDUCED, unsafe: assumption 60. -/
def State.eligible (s : State) (a e : Nat) : Bool :=
  (s.pageAt a .evicting).isNone && s.pinCount a == 0
  && !s.pageHasVersion (ptePa e) 19 && !s.buffered (ptePa e) (2 ^ 19) && !s.readsAhead (ptePa e) (2 ^ 19)

/-- When the page of an entry was last filled, for whichever context (R177). -/
def State.filledAt (s : State) (entry : Nat) : Nat :=
  s.ctxs.foldl (fun n p => p.2.pages.foldl (fun n q => if q.2.entry = entry then max n q.2.order else n) n) 0

/-- The eligible page of a context that was filled longest ago, but for one, named by its entry, that is passed over.
DEDUCED, unsafe: assumption 60. -/
def State.victim (s : State) (ctx : Nat) (but : Option Nat) : Option (Nat × Nat × Nat) :=
  let all := (s.residentUnder [0, 1, 2, 3] ((s.ctx ctx).ptroot * 4096) 0).filter
    (fun p => s.eligible p.2.1 p.2.2 && some p.2.1 != but)
  all.foldl (fun best p => match best with
    | none => some p
    | some q => if s.filledAt p.2.1 < s.filledAt q.2.1 then some p else some q) none

/-- Insertion by a key. -/
def insertBy {α : Type} (key : α → Nat) (x : α) : List α → List α
  | [] => [x]
  | y :: r => if key x < key y then x :: y :: r else y :: insertBy key x r

/-- The fills of a context that have no frame, in the order in which they began. -/
def State.needy (s : State) (ctx : Nat) : List Nat :=
  let c := s.ctx ctx
  let l := c.pages.filter (fun p => p.2.st == .filling && p.2.frame.isNone && !c.pages.any (fun q => q.2.forFill == some p.1))
  (l.foldr (insertBy (fun p => p.2.order)) []).map (·.1)

/-- Fills without a frame take one from the ring, or force the eviction of a victim; with neither the trap core takes FRAME_SHORT,
once for each fill that waits (R176). One page may be passed over.
DEDUCED, unsafe: assumption 40. DESIGN CHOICE, unsafe: assumption 103. -/
def State.pageServiceBut (s : State) (ctx : Nat) (but : Option Nat) : State :=
  (s.needy ctx).foldl (fun t vpn =>
    let c := t.ctx ctx
    let p := t.mpage ctx vpn
    match c.frames with
    | f :: rest => (t.setCtx ctx { c with frames := rest }).setMpage ctx vpn { p with frame := some f, short := false }
    | [] =>
      match t.victim ctx but with
      | some (v, a, _) =>
        let q := t.mpage ctx v
        (t.setMpage ctx vpn { p with short := false }).setMpage ctx v
          { q with st := .evicting, entry := a, forFill := some vpn, forPevict := false, forced := true, cluster := p.cluster }
      | none =>
        if p.short then t
        else (t.setMpage ctx vpn { p with short := true }).ctxTrap ctx 34 0 0 (BitVec.ofNat 64 (vpn * 2 ^ 19))) s

def State.pageService (s : State) (ctx : Nat) : State := s.pageServiceBut ctx none

/-- A walk for an access or a pin meets an absent managed page (Table 12-7). The page is that of its entry, whichever contexts share the
table it stands in.
DEDUCED, unsafe: assumption 38. -/
def State.touchPage (s : State) (ctx vpn entry cluster : Nat) : State :=
  match s.pageAt entry .filling, s.pageAt entry .writing with
  | some _, _ => s
  | none, some (c, v) => s.setMpage c v { s.mpage c v with wanted := some cluster }
  | none, none =>
    State.pageService (s.tookFree.setMpage ctx vpn { st := .filling, entry := entry, order := s.ctl.free, cluster := cluster }) ctx

/-- A walk for an access, or a pin, reaches the page of an entry whose eviction has not committed: the eviction is abandoned, and the fill
that forced it chooses another victim (R176).
DEDUCED, unsafe: assumption 38. -/
def State.abandon (s : State) (entry : Nat) : State :=
  match s.pageAt entry .evicting with
  | some (ctx, vpn) =>
    let p := s.mpage ctx vpn
    let s1 := s.setMpage ctx vpn { p with st := .resident, forPevict := false, forFill := none, forced := false }
    let c := s1.ctx ctx
    State.pageServiceBut (if p.forPevict then s1.setCtx ctx { c with pevictRes := 3 } else s1) ctx (some entry)
  | none => s

/-- The same, of the page that holds a va in a context. -/
def State.abandonAt (s : State) (ctx va : Nat) : State :=
  match s.entryOf ctx va with
  | some a => s.abandon a
  | none => s

/-- The fault that the walk which a request had been merged into has met (R172). -/
def State.mergedFault (s : State) (ctx : Nat) (r : WalkReq) : Option Nat :=
  ((s.die (dieOf r.cluster)).failed.find? (fun p => p.1 == ctx && p.2.1 == r)).map (·.2.2)

/-- A request has been answered: no fault is kept for it, and no walk is made. -/
def State.unask (s : State) (ctx : Nat) (r : WalkReq) : State :=
  let k := dieOf r.cluster
  let d := s.die k
  if d.failed.any (fun p => p.1 == ctx && p.2.1 == r) || d.walks.any (fun w => w.ctx == ctx && w.reqs.contains r) then
    s.setDie k { d with failed := d.failed.filter (fun p => !(p.1 == ctx && p.2.1 == r))
                        walks := d.walks.map (fun w => if w.ctx = ctx then { w with reqs := w.reqs.filter (fun q => q != r) } else w) }
  else s

/-- A miss that cannot walk at once waits at the die TLB, in its place (R172). -/
def State.joinWalk (s : State) (ctx : Nat) (r : WalkReq) : State :=
  if (s.die (dieOf r.cluster)).walks.any (fun w => w.ctx == ctx && w.vpn == r.va / 2 ^ 19 && w.reqs.contains r) then s
  else s.askWalk ctx r.va r

/-- Translation by an engine: a fault of a walk that it has been merged into is its own, and comes first; a walk on the spot that reaches
a page whose eviction has not committed abandons the eviction, and one that meets an absent managed page starts its fill (Table 12-7). A
miss that would share an outstanding walk, or finds every walker busy, waits for its turn at the die TLB (R172), and `who` looks again.
DESIGN CHOICE, unsafe: assumption 8. -/
def State.engineXlate (s : State) (who : Waiter) (cluster ctx va : Nat) (acc : Acc3) (user exempt : Bool) : State × Tr :=
  let r : WalkReq := { who := who, cluster := cluster, va := va, faddr := 0, acc := acc, user := user && !exempt }
  match s.mergedFault ctx r with
  | some reason => (s.unask ctx r, .fault reason)
  | none =>
    match s.look cluster ctx va acc user exempt with
    | .miss =>
      if s.walkBusy (dieOf cluster) ctx va then (s.joinWalk ctx r, .miss)
      else match s.translate cluster ctx va acc user exempt with
      | (s1, .ok e pa) => (s1.abandonAt ctx va, .ok e pa)
      | (s1, .absent a) => (s1.touchPage ctx (va / 2 ^ 19) a cluster, .absent a)
      | r => r
    | t => (s.unask ctx r, t)

/-! ### The done word (R90) -/

/-- The increment of a done word fails: the trap core takes LAUNCH_FAULT.
DEDUCED, unsafe: assumption 16. -/
def State.doneFails (s : State) (l : Launch) (reason status : Nat) : State :=
  (s.record { cause := tcauseWord 32 0 status reason 0 false false false, pc := 0, faddr := BitVec.ofNat 64 l.r.done, ctx := l.ctx,
              aux := l.r.rec_, cycle := s.cycle } none).1

/-- R90: adds 1 to the done word as a release at system scope, or LAUNCH_FAULT when it cannot; whether it has been done. It waits for
writes of the context to drain and to be acknowledged (R66), for a page to be filled (R169), and for another module's answer.
DEDUCED, unsafe: assumption 16. -/
def State.doneWord (s : State) (id : Nat) (l : Launch) : State × Bool :=
  if l.r.done = 0 then (s, true)
  else if l.asked then (s, false)
  else
    match s.drainCtx l.ctx with
    | (s0, some _) => (s0, false)
    | (s0, none) =>
      if s0.unacked l.ctx then (s0, false)
      else
        let cl := clusterOf (s0.ctx l.ctx).trapc
        match s0.engineXlate (.done id) cl l.ctx l.r.done .write true false with
        | (s1, .ok e pa) =>
          match e.tgt, s1.drainOver e.tgt e.rmod pa 8 with
          | _, (s2, some _) => (s2, false)
          | 0, (s2, none) =>
            if s2.poisoned pa 8 then (s2.doneFails l 6 0, true)
            else ((s2.perform cl l.ctx 0 pa l.r.done (leBytes 8 (s2.hbmRead pa 8 + 1))).1, true)
          | 1, (s2, none) =>
            if s2.hostFails pa 8 then (s2.doneFails l 5 0, true)
            else ({ s2 with host := Memory.writeBytes s2.host pa (leBytes 8 (leNat (Memory.readBytes s2.host pa 8) + 1)) }, true)
          | _, (s2, none) =>
            (State.egress { s2 with launches := Map.set s2.launches id { l with asked := true } } cl l.ctx
               { op := 3, dst := e.rmod, src := s2.links.lmod, len := 7, flags := 2, addr := pa, pay := leBytes 8 1 } (.done id), false)
        | (s1, .fault r) => (s1.doneFails l r 0, true)
        | (s1, _) => (s1, false)

/-- Another module has answered the increment of a done word: the launch is done all the same. -/
def State.doneAnswered (s : State) (id status : Nat) : State :=
  match Map.find? s.launches id with
  | none => s
  | some l =>
    let s1 := { s with launches := Map.erase s.launches id }
    if status = 0 then s1 else s1.doneFails l 5 status

/-- Launches that are done, and whose done words can now be incremented, are gone (Table 5-4). TEARDOWN discards a launch, and its done word
stays as it is (R88). -/
def State.finishLaunches (s : State) : State :=
  s.launches.foldl (fun t p => if p.2.st = .completing ∧ (s.ctx p.2.ctx).st ≠ .teardown then
      match t.doneWord p.1 p.2 with
      | (t1, true) => { t1 with launches := Map.erase t1.launches p.1 }
      | (t1, false) => t1
    else t) s

/-- A frame is free again: it passes to the fill that forced the eviction, or to the ring, which holds 256 frames (R175).
DESIGN CHOICE, unsafe: assumption 75. -/
def State.giveFrame (s : State) (ctx f : Nat) (forFill : Option Nat) : State :=
  let ring := fun (t : State) => let c := t.ctx ctx
                                 (t.setCtx ctx { c with frames := (c.frames ++ [f]).take 256 }).pageService ctx
  match forFill with
  | none => ring s
  | some w =>
    let p := s.mpage ctx w
    if p.st = .filling ∧ p.frame = none then s.setMpage ctx w { p with frame := some f } else ring s

/-- n bytes copied between memories. -/
def copyRange (src : Memory) (a : Nat) (dst : Memory) (b n : Nat) : Memory :=
  dst.filter (fun p => decide (p.1 < b))
  ++ (src.filter (fun p => decide (a ≤ p.1) && decide (p.1 < a + n))).map (fun p => (p.1 - a + b, p.2))
  ++ dst.filter (fun p => decide (b + n ≤ p.1))

/-- Sector numbers of a range moved from a to b.
DEDUCED, unsafe: assumption 37. -/
def moveSectors (l : List Nat) (a b n : Nat) : List Nat :=
  (l.filter (fun x => decide (a ≤ 32 * x) && decide (32 * x < a + n))).map (fun x => (32 * x - a + b) / 32)

/-- Sector numbers outside a range. -/
def outsideSectors (l : List Nat) (a n : Nat) : List Nat := l.filter (fun x => !(decide (a ≤ 32 * x) && decide (32 * x < a + n)))

/-- The host physical address of a page's backing copy (R174). -/
def State.backing (s : State) (entry : Nat) : Nat := bitsOf (s.hbmRead (entry + 4096) 8) 53 19 * 2 ^ 19

/-- The page that a pin of slot k waits for is that of an entry. -/
def State.awaitsPage (s : State) (k entry : Nat) (f : Fill) : Bool :=
  match f.src with
  | .page vpn => s.entryOf (s.slot k).ctx (vpn * 2 ^ 19) == some entry
  | _ => false

/-- A pin that waited for its page is counted, and its result is ready. -/
def State.pinProceeds (s : State) (k : Nat) (f : Fill) : State :=
  match f.src with
  | .page vpn =>
    let r := match s.pinAdd (s.slot k).ctx (pinKey 3 (vpn * 2 ^ 19)) with
      | some t => (t, (0 : Word64))
      | none => (s, 1)
    let y := r.1.slot k
    r.1.setSlot k { y with fills := y.fills.map (fun g => if g = f then { g with src := .ready, v := r.2 } else g) }
  | _ => s

/-- The pins that wait for the page of an entry are counted, in whichever contexts, and their results are ready. -/
def State.pinsProceed (s : State) (entry : Nat) : State :=
  (s.slots.map (·.1)).foldl (fun t k => (t.slot k).fills.foldl (fun t f => if t.awaitsPage k entry f then t.pinProceeds k f else t) t) s

/-- Invalidates every TLB's translations of a page (none: of a context). -/
def State.tlbDrop (s : State) (ctx : Nat) (vpn : Option Nat) : State :=
  let hit := fun (key : Nat) => match vpn with
    | none => key / 2 ^ 39 == ctx
    | some v => [1, 2, 3].any (fun lvl => key == tlbKey ctx lvl (v * 2 ^ 19))
  { s with clusters := s.clusters.map (fun p => (p.1, { p.2 with tlb := p.2.tlb.filter (fun q => !hit q.1) }))
           dies := s.dies.map (fun p => (p.1, { p.2 with tlb := p.2.tlb.filter (fun q => !hit q.1) })) }

/-- Every TLB's translations to a frame are dropped, in whichever contexts (R176). -/
def State.tlbDropFrame (s : State) (pa : Nat) : State :=
  let keep := fun (q : Nat × TlbEntry) => !(q.2.lvl == 3 && q.2.tgt == 0 && q.2.pa == pa)
  { s with clusters := s.clusters.map (fun p => (p.1, { p.2 with tlb := p.2.tlb.filter keep }))
           dies := s.dies.map (fun p => (p.1, { p.2 with tlb := p.2.tlb.filter keep })) }

/-- Waiter entries that a write has not met are dropped where their word's translation goes: their slots poll from then on, by a new
translation (R148, R173, R177). -/
def State.waitersDrop (s : State) (gone : WaitEntry → Bool) : State :=
  if s.slices.all (fun p => p.2.waiters.isEmpty) then s
  else s.mapWaiters (fun l => l.filter (fun e => e.met || !gone e))

/-- The context of a waiting thread. -/
def State.watcherCtx (s : State) (w : Watcher) : Nat :=
  match w with
  | .slot k => (s.slot k).ctx
  | .spilled ctx _ => ctx

/-- L1 lines of a range are invalidated in every core. -/
def State.l1Drop (s : State) (pa n : Nat) : State :=
  { s with cores := s.cores.map (fun p => (p.1, { p.2 with l1 := p.2.l1.filter (fun l => !(decide (l.addr < pa + n) && decide (pa < l.addr + 32))) })) }

/-- R176, R177: with every acknowledgement in, nothing in flight, no pin and no version, v becomes 0: the commit point. -/
def State.evictCommit (s : State) (ctx vpn : Nat) : State :=
  let p := s.mpage ctx vpn
  match p.st, s.residentEntry ctx vpn with
  | .evicting, some (a, e) =>
    let pa := ptePa e
    match s.drainOver 0 0 pa (2 ^ 19) with
    | (s1, some _) => s1
    | (s1, none) =>
      if s1.pinCount a ≠ 0 ∨ s1.pageHasVersion pa 19 ∨ s1.readsAhead pa (2 ^ 19) then s1
      else
        let e1 := s1.hbmRead a 8
        let s0 := ((s1.tlbDropFrame pa).tlbDrop ctx (some vpn)).waitersDrop (fun w => decide (pa ≤ w.pa) && decide (w.pa < pa + 2 ^ 19))
        let s2 := (s0.l1Drop pa (2 ^ 19)).hbmWriteNat a 8 (setBits e1 0 0 0)
        if pteD e1 then s2.setMpage ctx vpn { p with st := .writing, frame := some (pa / 2 ^ 19) }
        else
          let c := s2.ctx ctx
          let s3 := if p.forPevict then s2.setCtx ctx { c with pevictRes := 2 } else s2
          State.giveFrame (s3.setMpage ctx vpn {}) ctx (pa / 2 ^ 19) p.forFill
  | _, _ => s

def execEvictionCommit (s : State) : Out := .next (s.evictCommit s.ctl.at_.ctx s.ctl.at_.vpn)

/-- R176, R112: the frame has been written to the backing copy. A writeback that a fill forced starts only while the eviction
balance is above zero.
DEDUCED, unsafe: assumption 37. -/
def State.writebackDone (s : State) (ctx vpn : Nat) : State :=
  let p := s.mpage ctx vpn
  match p.st, p.frame with
  | .writing, some f =>
    if p.forced && !s.evictOpen p.cluster ctx then s
    else
      let pa := f * 2 ^ 19
      let h := s.backing p.entry
      let s0 := if p.forced then s.debitEvict p.cluster ctx 8192 else s
      let s1 := { s0 with host := copyRange s0.hbm pa s0.host h (2 ^ 19)
                          hostBad := outsideSectors s0.hostBad h (2 ^ 19) ++ moveSectors s0.poison pa h (2 ^ 19) }
      let c := s1.ctx ctx
      let s2 := if p.forPevict then s1.setCtx ctx { c with pevictRes := 2 } else s1
      let s3 := State.giveFrame (s2.setMpage ctx vpn {}) ctx f p.forFill
      match p.wanted with
      | some cl => s3.touchPage ctx vpn p.entry cl
      | none => s3
  | _, _ => s

def execWritebackDone (s : State) : Out := .next (s.writebackDone s.ctl.at_.ctx s.ctl.at_.vpn)

/-- R176, Table 12-6: PEVICT. A write while an earlier eviction of the context is in progress overwrites its result.
DESIGN CHOICE, unsafe: assumption 102. -/
def State.pevictPage (s : State) (ctx vpn : Nat) : State :=
  let c := s.ctx ctx
  let res := fun (n : Nat) => s.setCtx ctx { c with pevictRes := n }
  match s.residentEntry ctx vpn with
  | none => res 4
  | some (a, e) =>
    let p := s.mpage ctx vpn
    if p.st = .evicting then State.setMpage (res 1) ctx vpn { p with forPevict := true }
    else if !s.eligible a e then res 5
    else State.setMpage (res 1) ctx vpn { p with st := .evicting, entry := a, forPevict := true, forFill := none, forced := false }

def execPevict (ctx : BitVec 6) (vpn : BitVec 37) (s : State) : Out := s.whenReady (s.pevictPage ctx.toNat vpn.toNat)

/-- R175: a frame is pushed, or dropped. -/
def State.pushFrame (s : State) (ctx frame : Nat) : State :=
  let c := s.ctx ctx
  if 256 ≤ c.frames.length ∨ !s.inMap (frame * 2 ^ 19) (2 ^ 19) then s.setCtx ctx { c with puOvf := true }
  else State.pageService (s.setCtx ctx { c with frames := c.frames ++ [frame] }) ctx

def execFpush (ctx : BitVec 6) (frame : BitVec 35) (s : State) : Out := s.whenReady (s.pushFrame ctx.toNat frame.toNat)

/-! ### TLB invalidation (R173) -/

/-- An invalidation joins those in progress (Table 12-6). -/
def State.tlbinv (s : State) (ctx : Nat) (page : Option Nat) : State := s.setCtx ctx { s.ctx ctx with inv := (s.ctx ctx).inv ++ [page] }

def execTlbinvPage (ctx : BitVec 6) (vpn : BitVec 37) (s : State) : Out := s.whenReady (s.tlbinv ctx.toNat (some vpn.toNat))

def execTlbinvContext (ctx : BitVec 6) (s : State) : Out := s.whenReady (s.tlbinv ctx.toNat none)

/-- Accesses of a context that have been translated and not yet performed: operations on their way to other modules, the stripes of its
sweeps, the source of a mark job of its own. -/
def State.accessesAhead (s : State) (ctx : Nat) : Bool :=
  s.links.reqs.any (fun r => r.ctx == ctx) || s.links.egress.any (fun e => e.ctx == ctx)
  || s.clusters.any (fun p => p.2.xfers.any (fun x => x.req.ctx == ctx && !x.stripes.isEmpty))
  || (match s.mgmt.mkJob with
    | some j => bitsOf (j.words.getD 6 0).toNat 45 40 == ctx
    | none => false)

/-- No walk is made, and no fault kept, for a requester that asks no longer (R172). -/
def State.walkForgets (s : State) (who : Waiter) : State :=
  { s with dies := s.dies.map (fun p => (p.1, { p.2 with
      walks := p.2.walks.map (fun w => { w with reqs := w.reqs.filter (fun r => r.who != who) })
      failed := p.2.failed.filter (fun f => f.2.1.who != who) })) }

/-- What the invalidations in progress drop: the translations in the TLBs, and the waiter entries behind them. -/
def State.tlbinvDrops (s : State) (ctx : Nat) : State :=
  let s1 := (s.ctx ctx).inv.foldl (fun t page => t.tlbDrop ctx page) s
  s1.waitersDrop (fun e => s1.watcherCtx e.who == ctx)

/-- No TLB holds the old translations, and every access through them has been performed: busy clears. -/
def State.tlbinvDone (s : State) (ctx : Nat) : State :=
  if (s.ctx ctx).inv.isEmpty then s
  else
    match (s.tlbinvDrops ctx).drainCtx ctx with
    | (s1, none) => if s1.accessesAhead ctx then s1 else s1.setCtx ctx { s1.ctx ctx with inv := [] }
    | (s1, some _) => s1

def execTlbinvDone (s : State) : Out := .next (s.tlbinvDone s.ctl.at_.ctx)

end Sys2Proof.Machine
end

