-- ==== Sys2Proof/Machine/Cache.lean ====
section
/-! DEFINITION. The page and KV-cache instructions: `pin`, `unpin`, `gwalk`, `hashb`, `pfxl` (R179 to R186, R270, R271). -/

namespace Sys2Proof.Machine

/-! ### `pin` and `unpin` (R179, R271, Table 12-8) -/

/-- The address a pin names: the arena address of a private-window address; none in the scratchpad window or outside the windows. -/
def State.pinVa (s : State) (va : Nat) : Option Nat :=
  match windowOf va with
  | .global => some va
  | .priv off => some (s.arena s.cur.ctx s.cur.tid off)
  | _ => none

/-- The result of a pin or an unpin is ready. -/
def State.pinResult (s : State) (d : BitVec 5) (dep code : Nat) : State := s.pend d { reg := d.toNat, v := BitVec.ofNat 64 code, dep := dep }

/-- An instruction that pins waits for a walk of the page that is outstanding, or for a walker, or for a page that is not resident, and
issues again; the walk itself makes no check of the page's protection. -/
def State.pinWalk (s : State) (va : Nat) (kind : WalkKind) : State := s.walkWait va va true .read kind

/-- The slot holds the pin of a page that its walk has counted while it waited. -/
def State.pinHeld (s : State) (va : Nat) : Bool :=
  (s.cur.pfx.map (fun r => [1, 2, 3].any (fun lvl => r.pinned.contains (pinKey lvl va)))).getD false

/-- `pin` walks the page, whose walk marks its frames (R373); an absent managed page, or one being written back, is waited for with d PENDING.
DEDUCED, unsafe: assumption 39. -/
def State.pinPage (s : State) (d : BitVec 5) (va dep : Nat) (faddr : Word64) : State :=
  let ctx := s.cur.ctx
  let vpn := va / 2 ^ 19
  if s.pinHeld va then State.pinResult (s.setCur { s.cur with pfx := none }) d dep 0
  else if s.walkBusy (dieOf (clusterOf s.coreNo)) ctx va then s.pinWalk va .pin
  else match s.walk ctx va with
  | .fault r => s.trap (tDATA_FAULT faddr r 0)
  | .absent a =>
    (s.touchPage ctx vpn a (clusterOf s.coreNo)).pend d { reg := d.toNat, src := .page vpn, dep := dep }
  | .leaf lvl a e =>
    let s1 := (s.abandon a).markFrames (tlbOfPte lvl e)
    match s1.pinAdd ctx (pinKey lvl va) with
    | some s2 => s2.pinResult d dep 0
    | none => s1.pinResult d dep 1

def State.unpinPage (s : State) (d : BitVec 5) (va dep : Nat) (faddr : Word64) : State :=
  let ctx := s.cur.ctx
  let drop := fun (s : State) (lvl : Nat) => match s.pinDrop ctx (pinKey lvl va) with
    | some s1 => (s1.pageService ctx).pinResult d dep 0
    | none => s.pinResult d dep 2
  if s.walkBusy (dieOf (clusterOf s.coreNo)) ctx va then s.pinWalk va .unpin
  else match s.walk ctx va with
  | .fault r => s.trap (tDATA_FAULT faddr r 0)
  | .absent _ => drop s 3
  | .leaf lvl _ e => drop (s.markFrames (tlbOfPte lvl e)) lvl

/-- A pin or an unpin at the address in a register.
DEDUCED, unsafe: assumption 39. -/
def pinOp (i : Instr) (d a : BitVec 5) (ta : BitVec 1) (f : State → Nat → Nat → Word64 → State) (s : State) : Out :=
  operands i [(a, ta)] [d] s (fun s =>
    let va := ptrVa (s.gr a)
    let faddr := s.faddrOf s.cur.ctx s.cur.tid va
    match s.pinVa va with
    | none => s.trap (tDATA_FAULT faddr 1 0)
    | some v => f s v (s.cur.depOf [a.toNat]) faddr)

def execPin (d a : BitVec 5) (ta : BitVec 1) (s : State) : Out := pinOp (.pin d a ta) d a ta (fun s v dep fa => s.pinPage d v dep fa) s
def execUnpin (d a : BitVec 5) (ta : BitVec 1) (s : State) : Out := pinOp (.unpin d a ta) d a ta (fun s v dep fa => s.unpinPage d v dep fa) s

/-! ### Reads of many bytes as loads -/

/-- Where a chain of reads stands: the state, the dependency time; or the state in which the instruction has stopped. -/
abbrev Chain (α : Type) := Except State (State × Nat × α)

/-- n bytes at a va, as loads of at most 32 bytes each. -/
def State.readSpan (s : State) (dep va n : Nat) : Nat → Chain Nat
  | 0 => .ok (s, dep, 0)
  | fuel + 1 =>
    if n = 0 then .ok (s, dep, 0)
    else
      let k := min n (32 - va % 32)
      match s.tryWord (va % 2 ^ 56) k dep with
      | .error t => .error t
      | .ok (t, v, dp) =>
        match t.readSpan dp (va + k) (n - k) fuel with
        | .error u => .error u
        | .ok (u, dq, w) => .ok (u, dq, v + w * 2 ^ (8 * k))

/-- 64 bytes. -/
def State.read64 (s : State) (dep va : Nat) : Chain Nat := s.readSpan dep va 64 4

/-- The chain has ended: its value is the late result in d; a stopped chain leaves the state it stopped in. -/
def State.chainEnds (d : BitVec 5) (c : Chain Nat) : State :=
  match c with
  | .error t => t
  | .ok (t, dep, v) => t.dropFetched.pend d { reg := d.toNat, v := BitVec.ofNat 64 v, dep := dep }

/-! ### `hashb` (R184) -/

/-- z32 token i of 16. -/
def tokenOf (toks i : Nat) : Nat := bitsOf toks (32 * i + 31) (32 * i)

/-- The knurl hash of a block of 16 tokens. -/
def knurl (c : Word64) (toks : Nat) : Word64 :=
  (numsFrom 0 16).foldl (fun h i => h.rotateLeft 13 + BitVec.ofNat 64 (tokenOf toks i)) c

def execHashb (d a : BitVec 5) (ta : BitVec 1) (s : State) : Out :=
  operands (.hashb d a ta) [(a, ta), (d, 0#1)] [d] s (fun s => s.afterAcquires false (fun s =>
    let va := ptrVa (s.gr a)
    if va % 4 ≠ 0 then s.trap (tALIGN_FAULT (s.faddrOf s.cur.ctx s.cur.tid va))
    else State.chainEnds d (match s.read64 (s.cur.depOf [a.toNat, d.toNat]) va with
      | .error t => .error t
      | .ok (t, dep, toks) => .ok (t, dep, (knurl (s.gr d) toks).toNat))))

/-! ### `gwalk` (R181 to R183, Table 12-9) -/

/-- Word i of a node. -/
def nodeWord (n i : Nat) : Nat := bitsOf n (64 * i + 63) (64 * i)
def nodeStart (n : Nat) : Nat := bitsOf (nodeWord n 0) 63 32
def nodeLen (n : Nat) : Nat := bitsOf (nodeWord n 0) 31 0
def nodeSlog (n : Nat) : Nat := bitsOf (nodeWord n 3) 63 61

/-- A malformed node: len 0, a reserved field, slog above 6. -/
def nodeBad (n : Nat) : Bool :=
  nodeLen n == 0 || bitsOf (nodeWord n 2) 63 56 != 0 || bitsOf (nodeWord n 3) 60 56 != 0 || bitsOf (nodeWord n 6) 63 32 != 0
  || decide (6 < nodeSlog n)

/-- The result of a position that lies at offset o in a node.
DEDUCED, unsafe: assumption 43. -/
def nodeResult (n : Nat) (o : Int) : Nat :=
  let u : Int := (bitsOf (nodeWord n 2) 7 0 : Nat) + o
  let t : Int := ((2 ^ nodeSlog n : Nat) : Int)
  wrapInt 56 (((bitsOf (nodeWord n 2) 55 8 * 2 ^ 8 : Nat) : Int) + (u / t) * 256) + (u % t).toNat

/-- The sibling chain from the link word c: the first node whose ftok is t; none at a link that is 0. A node lies at bits [55:0] of its
link. A chain that never ends leaves the instruction unfinished. -/
def State.sibling (s : State) (dep c t : Nat) : Nat → Chain (Option (Nat × Nat))
  | 0 => .error s
  | fuel + 1 =>
    if c = 0 then .ok (s, dep, none)
    else match s.read64 dep (c % 2 ^ 56) with
      | .error u => .error u
      | .ok (u, dp, n) =>
        if bitsOf (nodeWord n 6) 31 0 = t then .ok (u, dp, some (c, n)) else u.sibling dp (nodeWord n 5) t fuel

/-- R182 from node n on, already read as v, with 64 − fuel nodes before it.
DEDUCED, unsafe: assumption 43. -/
def State.gwalkFrom (s : State) (dep v seq p : Nat) : Nat → Chain Nat
  | 0 => .ok (s, dep, 2 * 2 ^ 56)
  | fuel + 1 =>
    if nodeBad v then .ok (s, dep, 2 * 2 ^ 56)
    else
      let o : Int := (p : Int) - (nodeStart v : Nat)
      if o < (nodeLen v : Nat) then .ok (s, dep, nodeResult v o)
      else
        let next := nodeStart v + nodeLen v
        match s.readSpan dep (seq + 4 * next) 4 1 with
        | .error u => .error u
        | .ok (u, dp, t) =>
          match u.sibling dp (nodeWord v 4) t (2 ^ 50) with
          | .error w => .error w
          | .ok (w, dq, none) => .ok (w, dq, 2 ^ 56)
          | .ok (w, dq, some (_, c)) => if nodeStart c ≠ next then .ok (w, dq, 2 * 2 ^ 56) else w.gwalkFrom dq c seq p fuel

def execGwalk (d a b : BitVec 5) (ta tb : BitVec 1) (s : State) : Out :=
  operands (.gwalk d a b ta tb) [(a, ta), (b, tb), (d, 0#1)] [d] s (fun s => s.afterAcquires false (fun s =>
    let seq := ptrVa (s.gr b)
    let p := (s.gr d).toNat
    if seq % 4 ≠ 0 then s.trap (tALIGN_FAULT (s.faddrOf s.cur.ctx s.cur.tid seq))
    else if 2 ^ 32 ≤ p then State.chainEnds d (.ok (s, s.cur.depOf [a.toNat, b.toNat, d.toNat], 2 ^ 56))
    else State.chainEnds d (match s.read64 (s.cur.depOf [a.toNat, b.toNat, d.toNat]) (ptrVa (s.gr a)) with
      | .error t => .error t
      | .ok (t, dep, v) => t.gwalkFrom dep v seq p 64)))

/-! ### `pfxl` (R185, R186, Table 12-10) -/

/-- Word i of a prefix-table entry. -/
def pfxWord (e i : Nat) : Nat := bitsOf e (64 * i + 63) (64 * i)

/-- The entry is in use and well formed. -/
def pfxLive (e : Nat) : Bool :=
  (pfxWord e 1).testBit 63 && bitsOf (pfxWord e 1) 62 56 == 0 && bitsOf (pfxWord e 2) 63 35 == 0 && decide (bitsOf (pfxWord e 2) 34 32 ≤ 6)
  && bitsOf (pfxWord e 3) 63 56 == 0

/-- The entries from index i on: the first that matches block j, its hash and its tokens. -/
def State.pfxScan (s : State) (dep base j : Nat) (h : Word64) (toks i : Nat) : Nat → Chain (Option (Nat × Nat))
  | 0 => .ok (s, dep, none)
  | fuel + 1 =>
    match s.readSpan dep (base + 32 * i) 32 1 with
    | .error t => .error t
    | .ok (t, dp, e) =>
      if pfxLive e && bitsOf (pfxWord e 2) 31 0 == j && pfxWord e 0 == h.toNat then
        match t.read64 dp (bitsOf (pfxWord e 1) 55 0) with
        | .error u => .error u
        | .ok (u, dq, stored) => if stored = toks then .ok (u, dq, some (i, e)) else u.pfxScan dq base j h toks (i + 1) fuel
      else t.pfxScan dp base j h toks (i + 1) fuel

/-- The matched entries, for blocks j, j + 1, …: index and entry. -/
def State.pfxBlocks (s : State) (dep base tok : Nat) (h : Word64) (j : Nat) : Nat → Chain (List (Nat × Nat))
  | 0 => .ok (s, dep, [])
  | fuel + 1 =>
    match s.read64 dep (tok + 64 * j) with
    | .error t => .error t
    | .ok (t, dp, toks) =>
      let h1 := knurl h toks
      match t.pfxScan dp base j h1 toks 0 64 with
      | .error u => .error u
      | .ok (u, dq, none) => .ok (u, dq, [])
      | .ok (u, dq, some m) =>
        match u.pfxBlocks dq base tok h1 (j + 1) fuel with
        | .error w => .error w
        | .ok (w, dr, ms) => .ok (w, dr, m :: ms)

/-- The KV range of an entry. -/
def pfxRange (e : Nat) : Nat × Nat :=
  let lo := bitsOf (pfxWord e 3) 55 0 / 256 * 256
  (lo, lo + 16 * 256 / 2 ^ bitsOf (pfxWord e 2) 34 32)

/-- The `pfxl` at hand holds a pin of a page, which it took before it waited. -/
def State.pfxHolds (s : State) (key : Nat) : Bool := (s.cur.pfx.map (fun r => r.pinned.contains key)).getD false

/-- The `pfxl` at hand has taken a pin. -/
def State.notePin (s : State) (key : Nat) : State :=
  s.setCur { s.cur with pfx := s.cur.pfx.map (fun r => { r with pinned := key :: r.pinned }) }

/-- Pins the pages of a range of addresses in ascending order, each that is not among those pinned for earlier blocks (`taken`) or for this
one (`mine`): the state, the pages pinned for this block, and whether a pin failed. A fault gives up every pin. A pin of a page whose
eviction has not committed abandons the eviction (R178); a page that is not resident is waited for with the pins held.
DEDUCED, unsafe: assumption 39. -/
def State.pinRange (s : State) (taken mine : List Nat) (va stop : Nat) : Nat → Except State (State × List Nat × Bool)
  | 0 => .ok (s, mine, false)
  | fuel + 1 =>
    if stop ≤ va then .ok (s, mine, false)
    else
      let x := s.cur
      let fault := fun (r : Nat) =>
        Except.error ((s.releasePfx s.key).dropFetched.trap (tDATA_FAULT (s.faddrOf x.ctx x.tid va) r 0))
      match s.pinVa va with
      | none => fault 1
      | some v =>
        if s.walkBusy (dieOf (clusterOf s.coreNo)) x.ctx v then .error (s.pinWalk v .pin)
        else match s.walk x.ctx v with
        | .fault r => fault r
        | .absent _ => .error (s.pinWalk v .pin)
        | .leaf lvl a e =>
          let next := (va / 2 ^ pageLog lvl + 1) * 2 ^ pageLog lvl
          let key := pinKey lvl v
          if (mine ++ taken).contains key then s.pinRange taken mine next stop fuel
          else if s.pfxHolds key then s.pinRange taken (key :: mine) next stop fuel
          else
            let s1 := (s.abandon a).markFrames (tlbOfPte lvl e)
            match s1.pinAdd x.ctx key with
            | some s2 => (s2.notePin key).pinRange taken (key :: mine) next stop fuel
            | none => .ok (s1, mine, true)

/-- Pins the pages of each block in turn; PIN_FULL gives up the pins of that block alone. The answer is the state, the number of blocks
pinned, and whether a pin failed. -/
def State.pfxPin (s : State) (taken : List Nat) (j : Nat) : List (Nat × Nat) → Except State (State × Nat × Bool)
  | [] => .ok (s, j, false)
  | m :: rest =>
    match s.pinRange taken [] (pfxRange m.2).1 (pfxRange m.2).2 18 with
    | .error u => .error u
    | .ok (t, mine, true) => .ok (t.unpinAll t.cur.ctx mine, j, true)
    | .ok (t, mine, false) => t.pfxPin (mine ++ taken) (j + 1) rest

/-- The pinning of what a `pfxl` has matched, and its result. -/
def State.pfxPins (s : State) (d : BitVec 5) (r : PfxRun) : State :=
  match (s.setCur { s.cur with pfx := some r }).pfxPin [] 0 r.entries with
  | .error u => u
  | .ok (u, l, full) =>
    let last := if l = 0 then 0 else (r.entries.map (·.1)).getD (l - 1) 0
    State.chainEnds d (.ok (u.setCur { u.cur with pfx := none }, r.dep, l + b2n full * 2 ^ 7 + last * 2 ^ 8))

def execPfxl (d a : BitVec 5) (ta : BitVec 1) (s : State) : Out :=
  operands (.pfxl d a ta) [(a, ta), (d, 0#1)] [d] s (fun s => s.afterAcquires false (fun s =>
    let nb := (s.gr d).toNat
    let tok := ptrVa (s.gr a)
    let base := (s.ctx s.cur.ctx).pfxb.toNat % 2 ^ 56
    if nb = 0 ∨ 64 < nb then s.trap tILLEGAL
    else if tok % 4 ≠ 0 then s.trap (tALIGN_FAULT (s.faddrOf s.cur.ctx s.cur.tid tok))
    else match s.cur.pfx with
      | some r => s.pfxPins d r
      | none =>
        if base = 0 then State.chainEnds d (.ok (s, s.cur.depOf [a.toNat, d.toNat], 0))
        else match s.pfxBlocks (s.cur.depOf [a.toNat, d.toNat]) base tok 0 0 nb with
        | .error t => t
        | .ok (t, dep, ms) => t.pfxPins d { entries := ms, dep := dep }))

end Sys2Proof.Machine
end

