-- ==== Sys2Proof/Decode.lean ====
section
/-! DEFINITION. The decoder and the encoder of spindle words (R200 to R206) and of Lathe bundles (R207 to R213).
Both are written from Tables 14-1 to 14-9. -/

namespace Sys2Proof

/-- Why a word is no instruction. Every one of these traps ILLEGAL (R203, R210). -/
inductive DecodeError where
  | unusedField           -- a field the instruction does not use is non-zero (R201, R210)
  | unassignedSlotOpcode  -- an opcode that Tables 14-6 to 14-9 do not assign to the slot (R210)
  | illegalValue          -- a field value those tables mark illegal (R210)
  deriving DecidableEq, Repr

/-- A word whose unused fields are zero is the instruction; another is refused (R201, R203). -/
def strict (zero : Prop) [Decidable zero] (i : Instr) : Except DecodeError Instr :=
  if zero then .ok i else .error .unusedField

/-! ### The fields of the spindle formats (Table 14-1) -/

/-- The fields of format SA. -/
abbrev fieldsSA (mk : BitVec 5 → BitVec 5 → BitVec 5 → BitVec 1 → BitVec 1 → Instr) (w : Word32) : Instr :=
  mk (w.extractLsb' 19 5) (w.extractLsb' 14 5) (w.extractLsb' 9 5) (w.extractLsb' 8 1) (w.extractLsb' 7 1)
/-- The fields of format SI. -/
abbrev fieldsSI (mk : BitVec 5 → BitVec 5 → BitVec 1 → BitVec 13 → Instr) (w : Word32) : Instr :=
  mk (w.extractLsb' 19 5) (w.extractLsb' 14 5) (w.extractLsb' 13 1) (w.extractLsb' 0 13)
/-- The fields of format SM. -/
abbrev fieldsSM (mk : BitVec 5 → BitVec 5 → BitVec 1 → BitVec 3 → BitVec 2 → BitVec 8 → Instr) (w : Word32) : Instr :=
  mk (w.extractLsb' 19 5) (w.extractLsb' 14 5) (w.extractLsb' 13 1) (w.extractLsb' 10 3) (w.extractLsb' 8 2) (w.extractLsb' 0 8)
/-- The fields of format SB. -/
abbrev fieldsSB (mk : BitVec 5 → BitVec 5 → BitVec 1 → BitVec 1 → BitVec 12 → Instr) (w : Word32) : Instr :=
  mk (w.extractLsb' 19 5) (w.extractLsb' 14 5) (w.extractLsb' 13 1) (w.extractLsb' 12 1) (w.extractLsb' 0 12)
/-- The fields of the S-slot arithmetic (Table 14-6). -/
abbrev fieldsS (mk : BitVec 4 → BitVec 4 → BitVec 1 → BitVec 17 → Instr) (w : Word32) : Instr :=
  mk (w.extractLsb' 22 4) (w.extractLsb' 18 4) (w.extractLsb' 17 1) (w.extractLsb' 0 17)

/-! ### Spindle words -/

/-- Integer group, major 0x10 (R205, Table 14-3). -/
def decodeInt (w : Word32) : Except DecodeError Instr :=
  match (w.extractLsb' 0 7).toNat with
  | 0 => .ok (fieldsSA .add w)
  | 1 => .ok (fieldsSA .sub w)
  | 2 => .ok (fieldsSA .mul w)
  | 3 => .ok (fieldsSA .mulh w)
  | 4 => .ok (fieldsSA .mulhz w)
  | 5 => .ok (fieldsSA .div w)
  | 6 => .ok (fieldsSA .divz w)
  | 7 => .ok (fieldsSA .rem w)
  | 8 => .ok (fieldsSA .remz w)
  | 9 => .ok (fieldsSA .and w)
  | 10 => .ok (fieldsSA .or w)
  | 11 => .ok (fieldsSA .xor w)
  | 12 => .ok (fieldsSA .shl w)
  | 13 => .ok (fieldsSA .shr w)
  | 14 => .ok (fieldsSA .sra w)
  | 15 => .ok (fieldsSA .rotl w)
  | 16 => .ok (fieldsSA .min w)
  | 17 => .ok (fieldsSA .max w)
  | 18 => .ok (fieldsSA .minz w)
  | 19 => .ok (fieldsSA .maxz w)
  | 20 => .ok (fieldsSA .cmpeq w)
  | 21 => .ok (fieldsSA .cmplt w)
  | 22 => .ok (fieldsSA .cmpltz w)
  | 23 => .ok (fieldsSA .sel w)
  | 24 => strict (w.extractLsb' 9 5 = 0#5 ∧ w.extractLsb' 7 1 = 0#1) (.clz (w.extractLsb' 19 5) (w.extractLsb' 14 5) (w.extractLsb' 8 1))
  | 25 => strict (w.extractLsb' 9 5 = 0#5 ∧ w.extractLsb' 7 1 = 0#1) (.ctz (w.extractLsb' 19 5) (w.extractLsb' 14 5) (w.extractLsb' 8 1))
  | 26 => strict (w.extractLsb' 9 5 = 0#5 ∧ w.extractLsb' 7 1 = 0#1) (.popc (w.extractLsb' 19 5) (w.extractLsb' 14 5) (w.extractLsb' 8 1))
  | _ => .ok (.unassignedOpcode w)

/-- FP64 group, major 0x11 (R205, Table 14-3). -/
def decodeFp (w : Word32) : Except DecodeError Instr :=
  match (w.extractLsb' 0 7).toNat with
  | 0 => .ok (fieldsSA .fadd w)
  | 1 => .ok (fieldsSA .fsub w)
  | 2 => .ok (fieldsSA .fmul w)
  | 3 => .ok (fieldsSA .fmadd w)
  | 4 => .ok (fieldsSA .fdiv w)
  | 5 => .ok (fieldsSA .fmin w)
  | 6 => .ok (fieldsSA .fmax w)
  | 7 => .ok (fieldsSA .fcmp w)
  | 8 => strict (w.extractLsb' 9 5 = 0#5 ∧ w.extractLsb' 7 1 = 0#1) (.cvtfi (w.extractLsb' 19 5) (w.extractLsb' 14 5) (w.extractLsb' 8 1))
  | 9 => strict (w.extractLsb' 9 5 = 0#5 ∧ w.extractLsb' 7 1 = 0#1) (.cvtif (w.extractLsb' 19 5) (w.extractLsb' 14 5) (w.extractLsb' 8 1))
  | 10 => strict (w.extractLsb' 7 1 = 0#1) (.cvtffN (w.extractLsb' 19 5) (w.extractLsb' 14 5) (w.extractLsb' 9 5) (w.extractLsb' 8 1))
  | 11 => strict (w.extractLsb' 7 1 = 0#1) (.cvtffW (w.extractLsb' 19 5) (w.extractLsb' 14 5) (w.extractLsb' 9 5) (w.extractLsb' 8 1))
  | _ => .ok (.unassignedOpcode w)

/-- Pointer group, major 0x12 (R205, Table 14-3). -/
def decodePtr (w : Word32) : Except DecodeError Instr :=
  match (w.extractLsb' 0 7).toNat with
  | 0 => .ok (fieldsSA .padd w)
  | 1 => .ok (fieldsSA .pidx w)
  | 2 => .ok (fieldsSA .ptag w)
  | 3 => strict (w.extractLsb' 9 5 = 0#5 ∧ w.extractLsb' 7 1 = 0#1) (.pstrip (w.extractLsb' 19 5) (w.extractLsb' 14 5) (w.extractLsb' 8 1))
  | _ => .ok (.unassignedOpcode w)

/-- Constant-window group, major 0x13 (SK format) (R205, Table 14-3). -/
def decodeWindow (w : Word32) : Except DecodeError Instr :=
  match (w.extractLsb' 8 5).toNat with
  | 0 => strict (w.extractLsb' 13 6 = 0#6) (.movk (w.extractLsb' 19 5) (w.extractLsb' 0 8))
  | 1 => strict (w.extractLsb' 13 6 = 0#6) (.movkd (w.extractLsb' 19 5) (w.extractLsb' 0 8))
  | _ => .ok (.unassignedOpcode w)

/-- Control group, major 0x4A (R205, Table 14-3). -/
def decodeJump (w : Word32) : Except DecodeError Instr :=
  match (w.extractLsb' 0 7).toNat with
  | 0 => strict (w.extractLsb' 19 5 = 0#5 ∧ w.extractLsb' 9 5 = 0#5 ∧ w.extractLsb' 7 1 = 0#1) (.jr (w.extractLsb' 14 5) (w.extractLsb' 8 1))
  | 1 => strict (w.extractLsb' 9 5 = 0#5 ∧ w.extractLsb' 7 1 = 0#1) (.jlr (w.extractLsb' 19 5) (w.extractLsb' 14 5) (w.extractLsb' 8 1))
  | _ => .ok (.unassignedOpcode w)

/-- Thread group, major 0x50 (R205, Table 14-3). -/
def decodeThread (w : Word32) : Except DecodeError Instr :=
  match (w.extractLsb' 0 7).toNat with
  | 0 => strict (w.extractLsb' 7 12 = 0#12) (.purge (w.extractLsb' 19 5))
  | 1 => strict (w.extractLsb' 19 5 = 0#5) (.rfill (w.extractLsb' 14 5) (w.extractLsb' 9 5) (w.extractLsb' 8 1) (w.extractLsb' 7 1))
  | 2 => strict (w.extractLsb' 19 5 = 0#5 ∧ w.extractLsb' 9 5 = 0#5 ∧ w.extractLsb' 7 1 = 0#1) (.send (w.extractLsb' 14 5) (w.extractLsb' 8 1))
  | 3 => strict (w.extractLsb' 19 5 = 0#5 ∧ w.extractLsb' 9 5 = 0#5 ∧ w.extractLsb' 7 1 = 0#1) (.migrate (w.extractLsb' 14 5) (w.extractLsb' 8 1))
  | 4 => strict (w.extractLsb' 9 5 = 0#5 ∧ w.extractLsb' 7 1 = 0#1) (.mhome (w.extractLsb' 19 5) (w.extractLsb' 14 5) (w.extractLsb' 8 1))
  | 5 => strict (w.extractLsb' 19 5 = 0#5 ∧ w.extractLsb' 9 5 = 0#5 ∧ w.extractLsb' 7 1 = 0#1) (.setmig (w.extractLsb' 14 5) (w.extractLsb' 8 1))
  | 6 => strict (w.extractLsb' 9 5 = 0#5 ∧ w.extractLsb' 7 1 = 0#1) (.spawn (w.extractLsb' 19 5) (w.extractLsb' 14 5) (w.extractLsb' 8 1))
  | 7 => strict (w.extractLsb' 7 17 = 0#17) .exit
  | 8 => strict (w.extractLsb' 7 17 = 0#17) .yield
  | 9 => strict (w.extractLsb' 9 5 = 0#5 ∧ w.extractLsb' 7 1 = 0#1) (.dqpush (w.extractLsb' 19 5) (w.extractLsb' 14 5) (w.extractLsb' 8 1))
  | 10 => strict (w.extractLsb' 7 12 = 0#12) (.dqpop (w.extractLsb' 19 5))
  | 11 => strict (w.extractLsb' 19 5 = 0#5) (.launch (w.extractLsb' 14 5) (w.extractLsb' 9 5) (w.extractLsb' 8 1) (w.extractLsb' 7 1))
  | _ => .ok (.unassignedOpcode w)

/-- Tile group, major 0x51 (R205, Table 14-3). -/
def decodeTile (w : Word32) : Except DecodeError Instr :=
  match (w.extractLsb' 0 7).toNat with
  | 0 => .ok (fieldsSA .topen w)
  | 1 => .ok (fieldsSA .tst w)
  | 2 => .ok (fieldsSA .tsr w)
  | 3 => .ok (fieldsSA .tsq w)
  | 4 => strict (w.extractLsb' 9 5 = 0#5 ∧ w.extractLsb' 7 1 = 0#1) (.seal (w.extractLsb' 19 5) (w.extractLsb' 14 5) (w.extractLsb' 8 1))
  | 5 => strict (w.extractLsb' 19 5 = 0#5 ∧ w.extractLsb' 9 5 = 0#5 ∧ w.extractLsb' 7 1 = 0#1) (.tret (w.extractLsb' 14 5) (w.extractLsb' 8 1))
  | 6 => .ok (fieldsSA .tinfo w)
  | 7 => strict (w.extractLsb' 19 5 = 0#5) (.qpost (w.extractLsb' 14 5) (w.extractLsb' 9 5) (w.extractLsb' 8 1) (w.extractLsb' 7 1))
  | 8 => strict (w.extractLsb' 19 5 = 0#5 ∧ w.extractLsb' 9 5 = 0#5 ∧ w.extractLsb' 7 1 = 0#1) (.qeos (w.extractLsb' 14 5) (w.extractLsb' 8 1))
  | _ => .ok (.unassignedOpcode w)

/-- Engine group, major 0x52 (R205, Table 14-3). -/
def decodeEngine (w : Word32) : Except DecodeError Instr :=
  match (w.extractLsb' 0 7).toNat with
  | 0 => strict (w.extractLsb' 19 5 = 0#5 ∧ w.extractLsb' 9 5 = 0#5 ∧ w.extractLsb' 7 1 = 0#1) (.cpush (w.extractLsb' 14 5) (w.extractLsb' 8 1))
  | 1 => strict (w.extractLsb' 9 5 = 0#5 ∧ w.extractLsb' 7 1 = 0#1) (.cstat (w.extractLsb' 19 5) (w.extractLsb' 14 5) (w.extractLsb' 8 1))
  | 2 => strict (w.extractLsb' 19 5 = 0#5 ∧ w.extractLsb' 9 5 = 0#5 ∧ w.extractLsb' 7 1 = 0#1) (.pbinv (w.extractLsb' 14 5) (w.extractLsb' 8 1))
  | 3 => strict (w.extractLsb' 9 5 = 0#5 ∧ w.extractLsb' 7 1 = 0#1) (.barArrive (w.extractLsb' 19 5) (w.extractLsb' 14 5) (w.extractLsb' 8 1))
  | 4 => strict (w.extractLsb' 19 5 = 0#5) (.barWait (w.extractLsb' 14 5) (w.extractLsb' 9 5) (w.extractLsb' 8 1) (w.extractLsb' 7 1))
  | 5 => .ok (fieldsSA .barRed w)
  | _ => .ok (.unassignedOpcode w)

/-- Hypothesis group, major 0x53 (R205, Table 14-3). -/
def decodeHyp (w : Word32) : Except DecodeError Instr :=
  match (w.extractLsb' 0 7).toNat with
  | 0 => strict (w.extractLsb' 9 5 = 0#5 ∧ w.extractLsb' 7 1 = 0#1) (.hnew (w.extractLsb' 19 5) (w.extractLsb' 14 5) (w.extractLsb' 8 1))
  | 1 => strict (w.extractLsb' 19 5 = 0#5 ∧ w.extractLsb' 9 5 = 0#5 ∧ w.extractLsb' 7 1 = 0#1) (.hset (w.extractLsb' 14 5) (w.extractLsb' 8 1))
  | 2 => strict (w.extractLsb' 19 5 = 0#5 ∧ w.extractLsb' 9 5 = 0#5 ∧ w.extractLsb' 7 1 = 0#1) (.hconf (w.extractLsb' 14 5) (w.extractLsb' 8 1))
  | 3 => strict (w.extractLsb' 19 5 = 0#5 ∧ w.extractLsb' 9 5 = 0#5 ∧ w.extractLsb' 7 1 = 0#1) (.href (w.extractLsb' 14 5) (w.extractLsb' 8 1))
  | 4 => .ok (fieldsSA .gwalk w)
  | 5 => strict (w.extractLsb' 9 5 = 0#5 ∧ w.extractLsb' 7 1 = 0#1) (.hashb (w.extractLsb' 19 5) (w.extractLsb' 14 5) (w.extractLsb' 8 1))
  | 6 => strict (w.extractLsb' 9 5 = 0#5 ∧ w.extractLsb' 7 1 = 0#1) (.pfxl (w.extractLsb' 19 5) (w.extractLsb' 14 5) (w.extractLsb' 8 1))
  | 7 => strict (w.extractLsb' 9 5 = 0#5 ∧ w.extractLsb' 7 1 = 0#1) (.pin (w.extractLsb' 19 5) (w.extractLsb' 14 5) (w.extractLsb' 8 1))
  | 8 => strict (w.extractLsb' 9 5 = 0#5 ∧ w.extractLsb' 7 1 = 0#1) (.unpin (w.extractLsb' 19 5) (w.extractLsb' 14 5) (w.extractLsb' 8 1))
  | _ => .ok (.unassignedOpcode w)

/-- System group, major 0x54 (R205, Table 14-3). -/
def decodeSystem (w : Word32) : Except DecodeError Instr :=
  match (w.extractLsb' 0 7).toNat with
  | 0 => strict (w.extractLsb' 7 17 = 0#17) .nop
  | 1 => strict (w.extractLsb' 7 17 = 0#17) .eret
  | 2 => strict (w.extractLsb' 19 5 = 0#5 ∧ w.extractLsb' 9 5 = 0#5 ∧ w.extractLsb' 7 1 = 0#1) (.ckpt (w.extractLsb' 14 5) (w.extractLsb' 8 1))
  | 3 => strict (w.extractLsb' 19 5 = 0#5 ∧ w.extractLsb' 9 5 = 0#5 ∧ w.extractLsb' 7 1 = 0#1) (.lresume (w.extractLsb' 14 5) (w.extractLsb' 8 1))
  | 4 => strict (w.extractLsb' 19 5 = 0#5) (.vjoin (w.extractLsb' 14 5) (w.extractLsb' 9 5) (w.extractLsb' 8 1) (w.extractLsb' 7 1))
  | _ => .ok (.unassignedOpcode w)

/-- Reads one spindle word (R200 to R206). A word whose major opcode or minor is not assigned is the row
UNASSIGNED_OPCODE (R204); a word with a non-zero unused field is refused by name (R201, R203).
DEDUCED, unsafe: assumption 62. -/
def decodeSpindle (w : Word32) : Except DecodeError Instr :=
  match (w.extractLsb' 24 8).toNat with
  | 0x01 => .ok (fieldsSI .addi w)
  | 0x02 => .ok (fieldsSI .andi w)
  | 0x03 => .ok (fieldsSI .ori w)
  | 0x04 => .ok (fieldsSI .xori w)
  | 0x05 => .ok (fieldsSI .shli w)
  | 0x06 => .ok (fieldsSI .shri w)
  | 0x07 => .ok (fieldsSI .srai w)
  | 0x08 => .ok (fieldsSI .cmpeqi w)
  | 0x09 => .ok (fieldsSI .cmplti w)
  | 0x0A => strict (w.extractLsb' 13 6 = 0#6) (.movi (w.extractLsb' 19 5) (w.extractLsb' 0 13))
  | 0x0B => .ok (fieldsSI .movhi w)
  | 0x0C => strict (w.extractLsb' 12 1 = 0#1) (.bfx (w.extractLsb' 19 5) (w.extractLsb' 14 5) (w.extractLsb' 13 1) (w.extractLsb' 6 6) (w.extractLsb' 0 6))
  | 0x0D => strict (w.extractLsb' 12 1 = 0#1) (.bfi (w.extractLsb' 19 5) (w.extractLsb' 14 5) (w.extractLsb' 13 1) (w.extractLsb' 6 6) (w.extractLsb' 0 6))
  | 0x0E => strict (w.extractLsb' 5 8 = 0#8) (.fpack (w.extractLsb' 19 5) (w.extractLsb' 14 5) (w.extractLsb' 13 1) (w.extractLsb' 0 5))
  | 0x0F => strict (w.extractLsb' 5 8 = 0#8) (.fpick (w.extractLsb' 19 5) (w.extractLsb' 14 5) (w.extractLsb' 13 1) (w.extractLsb' 0 5))
  | 0x10 => decodeInt w
  | 0x11 => decodeFp w
  | 0x12 => decodePtr w
  | 0x13 => decodeWindow w
  | 0x18 => strict (w.extractLsb' 13 6 = 0#6) (.getk (w.extractLsb' 19 5) (w.extractLsb' 0 13))
  | 0x19 => strict (w.extractLsb' 19 5 = 0#5) (.setk (w.extractLsb' 14 5) (w.extractLsb' 13 1) (w.extractLsb' 0 13))
  | 0x1A => strict (w.extractLsb' 13 11 = 0#11) (.trap (w.extractLsb' 0 13))
  | 0x1B => strict (w.extractLsb' 13 11 = 0#11) (.brk (w.extractLsb' 0 13))
  | 0x20 => .ok (fieldsSM .ldB w)
  | 0x21 => .ok (fieldsSM .ldH w)
  | 0x22 => .ok (fieldsSM .ldW w)
  | 0x23 => .ok (fieldsSM .ldD w)
  | 0x24 => .ok (fieldsSM .ldzB w)
  | 0x25 => .ok (fieldsSM .ldzH w)
  | 0x26 => .ok (fieldsSM .ldzW w)
  | 0x28 => .ok (fieldsSM .stB w)
  | 0x29 => .ok (fieldsSM .stH w)
  | 0x2A => .ok (fieldsSM .stW w)
  | 0x2B => .ok (fieldsSM .stD w)
  | 0x2C => .ok (fieldsSM .ldt w)
  | 0x2D => .ok (fieldsSM .stt w)
  | 0x2E => strict (w.extractLsb' 19 5 = 0#5 ∧ w.extractLsb' 8 5 = 0#5) (.pf (w.extractLsb' 14 5) (w.extractLsb' 13 1) (w.extractLsb' 0 8))
  | 0x2F => strict (w.extractLsb' 13 11 = 0#11 ∧ w.extractLsb' 0 8 = 0#8) (.fence (w.extractLsb' 10 3) (w.extractLsb' 8 2))
  | 0x30 => .ok (fieldsSM .amoSwap w)
  | 0x31 => .ok (fieldsSM .amoAdd w)
  | 0x32 => .ok (fieldsSM .amoAnd w)
  | 0x33 => .ok (fieldsSM .amoOr w)
  | 0x34 => .ok (fieldsSM .amoXor w)
  | 0x35 => .ok (fieldsSM .amoMin w)
  | 0x36 => .ok (fieldsSM .amoMax w)
  | 0x37 => .ok (fieldsSM .amoMinz w)
  | 0x38 => .ok (fieldsSM .amoMaxz w)
  | 0x39 => .ok (fieldsSM .amoFadd w)
  | 0x3A => .ok (fieldsSM .amoAddBatch w)
  | 0x3B => .ok (fieldsSM .cas w)
  | 0x3C => strict (w.extractLsb' 8 2 = 2#2) (.notify (w.extractLsb' 19 5) (w.extractLsb' 14 5) (w.extractLsb' 13 1) (w.extractLsb' 10 3) (w.extractLsb' 0 8))
  | 0x3D => strict (w.extractLsb' 8 2 = 1#2) (.nwait (w.extractLsb' 19 5) (w.extractLsb' 14 5) (w.extractLsb' 13 1) (w.extractLsb' 10 3) (w.extractLsb' 0 8))
  | 0x40 => .ok (fieldsSB .beq w)
  | 0x41 => .ok (fieldsSB .bne w)
  | 0x42 => .ok (fieldsSB .blt w)
  | 0x43 => .ok (fieldsSB .bge w)
  | 0x44 => strict (w.extractLsb' 14 5 = 0#5 ∧ w.extractLsb' 12 1 = 0#1) (.bltz (w.extractLsb' 19 5) (w.extractLsb' 13 1) (w.extractLsb' 0 12))
  | 0x45 => strict (w.extractLsb' 14 5 = 0#5 ∧ w.extractLsb' 12 1 = 0#1) (.bgez (w.extractLsb' 19 5) (w.extractLsb' 13 1) (w.extractLsb' 0 12))
  | 0x48 => .ok (.b (w.extractLsb' 0 24))
  | 0x49 => .ok (.bl (w.extractLsb' 0 24))
  | 0x4A => decodeJump w
  | 0x50 => decodeThread w
  | 0x51 => decodeTile w
  | 0x52 => decodeEngine w
  | 0x53 => decodeHyp w
  | 0x54 => decodeSystem w
  | _ => .ok (.unassignedOpcode w)

/-- The bytes of a little-endian 32-bit word, lowest address first (R200). -/
def word32OfBytes (b0 b1 b2 b3 : BitVec 8) : Word32 := b3 ++ b2 ++ b1 ++ b0

/-- The spindle decoder on bytes: the instruction of the first four bytes and the bytes after it. -/
def decode : List (BitVec 8) → Except DecodeError (Instr × List (BitVec 8))
  | b0 :: b1 :: b2 :: b3 :: rest => (decodeSpindle (word32OfBytes b0 b1 b2 b3)).map (·, rest)
  | _ => .error .illegalValue

/-- The decoder on a word numbered as the opcode table numbers its bits: spindle words have 32 bits, little-endian. -/
def decodeTableWord (_nbits w : Nat) : Option Instr :=
  let x := BitVec.ofNat 32 w
  match decode [x.extractLsb' 0 8, x.extractLsb' 8 8, x.extractLsb' 16 8, x.extractLsb' 24 8] with
  | .ok (i, _) => some i
  | .error _ => none

/-- The word of a spindle instruction (Tables 14-1 to 14-4); none for an instruction that has no spindle word. -/
def encodeSpindle (i : Instr) : Option Word32 :=
  match i with
  | .addi d a ta imm => some (1#8 ++ d ++ a ++ ta ++ imm)
  | .andi d a ta imm => some (2#8 ++ d ++ a ++ ta ++ imm)
  | .ori d a ta imm => some (3#8 ++ d ++ a ++ ta ++ imm)
  | .xori d a ta imm => some (4#8 ++ d ++ a ++ ta ++ imm)
  | .shli d a ta imm => some (5#8 ++ d ++ a ++ ta ++ imm)
  | .shri d a ta imm => some (6#8 ++ d ++ a ++ ta ++ imm)
  | .srai d a ta imm => some (7#8 ++ d ++ a ++ ta ++ imm)
  | .cmpeqi d a ta imm => some (8#8 ++ d ++ a ++ ta ++ imm)
  | .cmplti d a ta imm => some (9#8 ++ d ++ a ++ ta ++ imm)
  | .movi d imm => some (10#8 ++ d ++ 0#6 ++ imm)
  | .movhi d a ta imm => some (11#8 ++ d ++ a ++ ta ++ imm)
  | .bfx d a ta wm1 pos => some (12#8 ++ d ++ a ++ ta ++ 0#1 ++ wm1 ++ pos)
  | .bfi d a ta wm1 pos => some (13#8 ++ d ++ a ++ ta ++ 0#1 ++ wm1 ++ pos)
  | .fpack d a ta entry => some (14#8 ++ d ++ a ++ ta ++ 0#8 ++ entry)
  | .fpick d a ta entry => some (15#8 ++ d ++ a ++ ta ++ 0#8 ++ entry)
  | .add d a b ta tb => some (16#8 ++ d ++ a ++ b ++ ta ++ tb ++ 0#7)
  | .sub d a b ta tb => some (16#8 ++ d ++ a ++ b ++ ta ++ tb ++ 1#7)
  | .mul d a b ta tb => some (16#8 ++ d ++ a ++ b ++ ta ++ tb ++ 2#7)
  | .mulh d a b ta tb => some (16#8 ++ d ++ a ++ b ++ ta ++ tb ++ 3#7)
  | .mulhz d a b ta tb => some (16#8 ++ d ++ a ++ b ++ ta ++ tb ++ 4#7)
  | .div d a b ta tb => some (16#8 ++ d ++ a ++ b ++ ta ++ tb ++ 5#7)
  | .divz d a b ta tb => some (16#8 ++ d ++ a ++ b ++ ta ++ tb ++ 6#7)
  | .rem d a b ta tb => some (16#8 ++ d ++ a ++ b ++ ta ++ tb ++ 7#7)
  | .remz d a b ta tb => some (16#8 ++ d ++ a ++ b ++ ta ++ tb ++ 8#7)
  | .and d a b ta tb => some (16#8 ++ d ++ a ++ b ++ ta ++ tb ++ 9#7)
  | .or d a b ta tb => some (16#8 ++ d ++ a ++ b ++ ta ++ tb ++ 10#7)
  | .xor d a b ta tb => some (16#8 ++ d ++ a ++ b ++ ta ++ tb ++ 11#7)
  | .shl d a b ta tb => some (16#8 ++ d ++ a ++ b ++ ta ++ tb ++ 12#7)
  | .shr d a b ta tb => some (16#8 ++ d ++ a ++ b ++ ta ++ tb ++ 13#7)
  | .sra d a b ta tb => some (16#8 ++ d ++ a ++ b ++ ta ++ tb ++ 14#7)
  | .rotl d a b ta tb => some (16#8 ++ d ++ a ++ b ++ ta ++ tb ++ 15#7)
  | .min d a b ta tb => some (16#8 ++ d ++ a ++ b ++ ta ++ tb ++ 16#7)
  | .max d a b ta tb => some (16#8 ++ d ++ a ++ b ++ ta ++ tb ++ 17#7)
  | .minz d a b ta tb => some (16#8 ++ d ++ a ++ b ++ ta ++ tb ++ 18#7)
  | .maxz d a b ta tb => some (16#8 ++ d ++ a ++ b ++ ta ++ tb ++ 19#7)
  | .cmpeq d a b ta tb => some (16#8 ++ d ++ a ++ b ++ ta ++ tb ++ 20#7)
  | .cmplt d a b ta tb => some (16#8 ++ d ++ a ++ b ++ ta ++ tb ++ 21#7)
  | .cmpltz d a b ta tb => some (16#8 ++ d ++ a ++ b ++ ta ++ tb ++ 22#7)
  | .sel d a b ta tb => some (16#8 ++ d ++ a ++ b ++ ta ++ tb ++ 23#7)
  | .clz d a ta => some (16#8 ++ d ++ a ++ 0#5 ++ ta ++ 0#1 ++ 24#7)
  | .ctz d a ta => some (16#8 ++ d ++ a ++ 0#5 ++ ta ++ 0#1 ++ 25#7)
  | .popc d a ta => some (16#8 ++ d ++ a ++ 0#5 ++ ta ++ 0#1 ++ 26#7)
  | .fadd d a b ta tb => some (17#8 ++ d ++ a ++ b ++ ta ++ tb ++ 0#7)
  | .fsub d a b ta tb => some (17#8 ++ d ++ a ++ b ++ ta ++ tb ++ 1#7)
  | .fmul d a b ta tb => some (17#8 ++ d ++ a ++ b ++ ta ++ tb ++ 2#7)
  | .fmadd d a b ta tb => some (17#8 ++ d ++ a ++ b ++ ta ++ tb ++ 3#7)
  | .fdiv d a b ta tb => some (17#8 ++ d ++ a ++ b ++ ta ++ tb ++ 4#7)
  | .fmin d a b ta tb => some (17#8 ++ d ++ a ++ b ++ ta ++ tb ++ 5#7)
  | .fmax d a b ta tb => some (17#8 ++ d ++ a ++ b ++ ta ++ tb ++ 6#7)
  | .fcmp d a b ta tb => some (17#8 ++ d ++ a ++ b ++ ta ++ tb ++ 7#7)
  | .cvtfi d a ta => some (17#8 ++ d ++ a ++ 0#5 ++ ta ++ 0#1 ++ 8#7)
  | .cvtif d a ta => some (17#8 ++ d ++ a ++ 0#5 ++ ta ++ 0#1 ++ 9#7)
  | .cvtffN d a fmt ta => some (17#8 ++ d ++ a ++ fmt ++ ta ++ 0#1 ++ 10#7)
  | .cvtffW d a fmt ta => some (17#8 ++ d ++ a ++ fmt ++ ta ++ 0#1 ++ 11#7)
  | .padd d a b ta tb => some (18#8 ++ d ++ a ++ b ++ ta ++ tb ++ 0#7)
  | .pidx d a b ta tb => some (18#8 ++ d ++ a ++ b ++ ta ++ tb ++ 1#7)
  | .ptag d a b ta tb => some (18#8 ++ d ++ a ++ b ++ ta ++ tb ++ 2#7)
  | .pstrip d a ta => some (18#8 ++ d ++ a ++ 0#5 ++ ta ++ 0#1 ++ 3#7)
  | .movk d index => some (19#8 ++ d ++ 0#6 ++ 0#5 ++ index)
  | .movkd d index => some (19#8 ++ d ++ 0#6 ++ 1#5 ++ index)
  | .getk d k => some (24#8 ++ d ++ 0#6 ++ k)
  | .setk a ta k => some (25#8 ++ 0#5 ++ a ++ ta ++ k)
  | .trap code => some (26#8 ++ 0#11 ++ code)
  | .brk code => some (27#8 ++ 0#11 ++ code)
  | .ldB d base ta scope order off => some (32#8 ++ d ++ base ++ ta ++ scope ++ order ++ off)
  | .ldH d base ta scope order off => some (33#8 ++ d ++ base ++ ta ++ scope ++ order ++ off)
  | .ldW d base ta scope order off => some (34#8 ++ d ++ base ++ ta ++ scope ++ order ++ off)
  | .ldD d base ta scope order off => some (35#8 ++ d ++ base ++ ta ++ scope ++ order ++ off)
  | .ldzB d base ta scope order off => some (36#8 ++ d ++ base ++ ta ++ scope ++ order ++ off)
  | .ldzH d base ta scope order off => some (37#8 ++ d ++ base ++ ta ++ scope ++ order ++ off)
  | .ldzW d base ta scope order off => some (38#8 ++ d ++ base ++ ta ++ scope ++ order ++ off)
  | .stB d base ta scope order off => some (40#8 ++ d ++ base ++ ta ++ scope ++ order ++ off)
  | .stH d base ta scope order off => some (41#8 ++ d ++ base ++ ta ++ scope ++ order ++ off)
  | .stW d base ta scope order off => some (42#8 ++ d ++ base ++ ta ++ scope ++ order ++ off)
  | .stD d base ta scope order off => some (43#8 ++ d ++ base ++ ta ++ scope ++ order ++ off)
  | .ldt d base ta scope order off => some (44#8 ++ d ++ base ++ ta ++ scope ++ order ++ off)
  | .stt d base ta scope order off => some (45#8 ++ d ++ base ++ ta ++ scope ++ order ++ off)
  | .pf base ta off => some (46#8 ++ 0#5 ++ base ++ ta ++ 0#5 ++ off)
  | .fence scope order => some (47#8 ++ 0#11 ++ scope ++ order ++ 0#8)
  | .amoSwap d base ta scope order off => some (48#8 ++ d ++ base ++ ta ++ scope ++ order ++ off)
  | .amoAdd d base ta scope order off => some (49#8 ++ d ++ base ++ ta ++ scope ++ order ++ off)
  | .amoAnd d base ta scope order off => some (50#8 ++ d ++ base ++ ta ++ scope ++ order ++ off)
  | .amoOr d base ta scope order off => some (51#8 ++ d ++ base ++ ta ++ scope ++ order ++ off)
  | .amoXor d base ta scope order off => some (52#8 ++ d ++ base ++ ta ++ scope ++ order ++ off)
  | .amoMin d base ta scope order off => some (53#8 ++ d ++ base ++ ta ++ scope ++ order ++ off)
  | .amoMax d base ta scope order off => some (54#8 ++ d ++ base ++ ta ++ scope ++ order ++ off)
  | .amoMinz d base ta scope order off => some (55#8 ++ d ++ base ++ ta ++ scope ++ order ++ off)
  | .amoMaxz d base ta scope order off => some (56#8 ++ d ++ base ++ ta ++ scope ++ order ++ off)
  | .amoFadd d base ta scope order off => some (57#8 ++ d ++ base ++ ta ++ scope ++ order ++ off)
  | .amoAddBatch d base ta scope order off => some (58#8 ++ d ++ base ++ ta ++ scope ++ order ++ off)
  | .cas d base ta scope order off => some (59#8 ++ d ++ base ++ ta ++ scope ++ order ++ off)
  | .notify d base ta scope off => some (60#8 ++ d ++ base ++ ta ++ scope ++ 2#2 ++ off)
  | .nwait d base ta scope off => some (61#8 ++ d ++ base ++ ta ++ scope ++ 1#2 ++ off)
  | .beq a b ta tb disp => some (64#8 ++ a ++ b ++ ta ++ tb ++ disp)
  | .bne a b ta tb disp => some (65#8 ++ a ++ b ++ ta ++ tb ++ disp)
  | .blt a b ta tb disp => some (66#8 ++ a ++ b ++ ta ++ tb ++ disp)
  | .bge a b ta tb disp => some (67#8 ++ a ++ b ++ ta ++ tb ++ disp)
  | .bltz a ta disp => some (68#8 ++ a ++ 0#5 ++ ta ++ 0#1 ++ disp)
  | .bgez a ta disp => some (69#8 ++ a ++ 0#5 ++ ta ++ 0#1 ++ disp)
  | .b disp => some (72#8 ++ disp)
  | .bl disp => some (73#8 ++ disp)
  | .jr a ta => some (74#8 ++ 0#5 ++ a ++ 0#5 ++ ta ++ 0#1 ++ 0#7)
  | .jlr d a ta => some (74#8 ++ d ++ a ++ 0#5 ++ ta ++ 0#1 ++ 1#7)
  | .purge d => some (80#8 ++ d ++ 0#12 ++ 0#7)
  | .rfill a b ta tb => some (80#8 ++ 0#5 ++ a ++ b ++ ta ++ tb ++ 1#7)
  | .send a ta => some (80#8 ++ 0#5 ++ a ++ 0#5 ++ ta ++ 0#1 ++ 2#7)
  | .migrate a ta => some (80#8 ++ 0#5 ++ a ++ 0#5 ++ ta ++ 0#1 ++ 3#7)
  | .mhome d a ta => some (80#8 ++ d ++ a ++ 0#5 ++ ta ++ 0#1 ++ 4#7)
  | .setmig a ta => some (80#8 ++ 0#5 ++ a ++ 0#5 ++ ta ++ 0#1 ++ 5#7)
  | .spawn d a ta => some (80#8 ++ d ++ a ++ 0#5 ++ ta ++ 0#1 ++ 6#7)
  | .exit => some (80#8 ++ 0#17 ++ 7#7)
  | .yield => some (80#8 ++ 0#17 ++ 8#7)
  | .dqpush d a ta => some (80#8 ++ d ++ a ++ 0#5 ++ ta ++ 0#1 ++ 9#7)
  | .dqpop d => some (80#8 ++ d ++ 0#12 ++ 10#7)
  | .launch a b ta tb => some (80#8 ++ 0#5 ++ a ++ b ++ ta ++ tb ++ 11#7)
  | .topen d a b ta tb => some (81#8 ++ d ++ a ++ b ++ ta ++ tb ++ 0#7)
  | .tst d a b ta tb => some (81#8 ++ d ++ a ++ b ++ ta ++ tb ++ 1#7)
  | .tsr d a b ta tb => some (81#8 ++ d ++ a ++ b ++ ta ++ tb ++ 2#7)
  | .tsq d a b ta tb => some (81#8 ++ d ++ a ++ b ++ ta ++ tb ++ 3#7)
  | .seal d a ta => some (81#8 ++ d ++ a ++ 0#5 ++ ta ++ 0#1 ++ 4#7)
  | .tret a ta => some (81#8 ++ 0#5 ++ a ++ 0#5 ++ ta ++ 0#1 ++ 5#7)
  | .tinfo d a b ta tb => some (81#8 ++ d ++ a ++ b ++ ta ++ tb ++ 6#7)
  | .qpost a b ta tb => some (81#8 ++ 0#5 ++ a ++ b ++ ta ++ tb ++ 7#7)
  | .qeos a ta => some (81#8 ++ 0#5 ++ a ++ 0#5 ++ ta ++ 0#1 ++ 8#7)
  | .cpush a ta => some (82#8 ++ 0#5 ++ a ++ 0#5 ++ ta ++ 0#1 ++ 0#7)
  | .cstat d a ta => some (82#8 ++ d ++ a ++ 0#5 ++ ta ++ 0#1 ++ 1#7)
  | .pbinv a ta => some (82#8 ++ 0#5 ++ a ++ 0#5 ++ ta ++ 0#1 ++ 2#7)
  | .barArrive d a ta => some (82#8 ++ d ++ a ++ 0#5 ++ ta ++ 0#1 ++ 3#7)
  | .barWait a b ta tb => some (82#8 ++ 0#5 ++ a ++ b ++ ta ++ tb ++ 4#7)
  | .barRed d a b ta tb => some (82#8 ++ d ++ a ++ b ++ ta ++ tb ++ 5#7)
  | .hnew d a ta => some (83#8 ++ d ++ a ++ 0#5 ++ ta ++ 0#1 ++ 0#7)
  | .hset a ta => some (83#8 ++ 0#5 ++ a ++ 0#5 ++ ta ++ 0#1 ++ 1#7)
  | .hconf a ta => some (83#8 ++ 0#5 ++ a ++ 0#5 ++ ta ++ 0#1 ++ 2#7)
  | .href a ta => some (83#8 ++ 0#5 ++ a ++ 0#5 ++ ta ++ 0#1 ++ 3#7)
  | .gwalk d a b ta tb => some (83#8 ++ d ++ a ++ b ++ ta ++ tb ++ 4#7)
  | .hashb d a ta => some (83#8 ++ d ++ a ++ 0#5 ++ ta ++ 0#1 ++ 5#7)
  | .pfxl d a ta => some (83#8 ++ d ++ a ++ 0#5 ++ ta ++ 0#1 ++ 6#7)
  | .pin d a ta => some (83#8 ++ d ++ a ++ 0#5 ++ ta ++ 0#1 ++ 7#7)
  | .unpin d a ta => some (83#8 ++ d ++ a ++ 0#5 ++ ta ++ 0#1 ++ 8#7)
  | .nop => some (84#8 ++ 0#17 ++ 0#7)
  | .eret => some (84#8 ++ 0#17 ++ 1#7)
  | .ckpt a ta => some (84#8 ++ 0#5 ++ a ++ 0#5 ++ ta ++ 0#1 ++ 2#7)
  | .lresume a ta => some (84#8 ++ 0#5 ++ a ++ 0#5 ++ ta ++ 0#1 ++ 3#7)
  | .vjoin a b ta tb => some (84#8 ++ 0#5 ++ a ++ b ++ ta ++ tb ++ 4#7)
  | _ => none

/-! ### Lathe slot words -/

/-- The S slot, Table 14-6 (R211). -/
def decodeSlotS (w : Word32) : Except DecodeError Instr :=
  match (w.extractLsb' 26 6).toNat with
  | 0 => strict (w.extractLsb' 0 26 = 0#26) .snop
  | 1 => .ok (fieldsS .sadd w)
  | 2 => .ok (fieldsS .ssub w)
  | 3 => .ok (fieldsS .smul w)
  | 4 => .ok (fieldsS .sand w)
  | 5 => .ok (fieldsS .sor w)
  | 6 => .ok (fieldsS .sxor w)
  | 7 => .ok (fieldsS .sshl w)
  | 8 => .ok (fieldsS .sshr w)
  | 9 => strict (w.extractLsb' 17 1 = 0#1 ∧ w.extractLsb' 0 10 = 0#10) (.scmp (w.extractLsb' 22 4) (w.extractLsb' 18 4) (w.extractLsb' 13 4) (w.extractLsb' 10 3))
  | 10 => .ok (.smovi (w.extractLsb' 22 4) (w.extractLsb' 0 22))
  | 11 => strict (w.extractLsb' 8 14 = 0#14) (.smovk (w.extractLsb' 22 4) (w.extractLsb' 0 8))
  | 12 => strict (w.extractLsb' 22 2 = 0#2 ∧ w.extractLsb' 16 2 = 0#2) (.sb (w.extractLsb' 24 2) (w.extractLsb' 18 4) (w.extractLsb' 0 16))
  | 13 => strict (w.extractLsb' 22 3 = 0#3 ∧ w.extractLsb' 16 2 = 0#2) (.loop (w.extractLsb' 25 1) (w.extractLsb' 18 4) (w.extractLsb' 0 16))
  | 14 => strict (w.extractLsb' 22 1 = 0#1 ∧ w.extractLsb' 0 18 = 0#18) (.qwait (w.extractLsb' 23 3) (w.extractLsb' 18 4))
  | 15 => strict (w.extractLsb' 23 1 = 0#1 ∧ w.extractLsb' 0 20 = 0#20) (.qpostLathe (w.extractLsb' 24 2) (w.extractLsb' 20 3))
  | 16 => strict (w.extractLsb' 0 24 = 0#24) (.qeosLathe (w.extractLsb' 24 2))
  | 17 => strict (w.extractLsb' 0 23 = 0#23) (.tretLathe (w.extractLsb' 23 3))
  | 18 => strict (w.extractLsb' 6 16 = 0#16) (.getkLathe (w.extractLsb' 22 4) (w.extractLsb' 0 6))
  | 19 => strict (w.extractLsb' 22 4 = 0#4 ∧ w.extractLsb' 6 12 = 0#12) (.setkLathe (w.extractLsb' 18 4) (w.extractLsb' 0 6))
  | 20 => strict (w.extractLsb' 12 14 = 0#14) (.trapsw (w.extractLsb' 0 12))
  | _ => .error .unassignedSlotOpcode

/-- The V slot, Table 14-7 (R212). -/
def decodeSlotV (w : Word32) : Except DecodeError Instr :=
  match (w.extractLsb' 26 6).toNat with
  | 0 => strict (w.extractLsb' 0 26 = 0#26) .vnop
  | 1 => strict (w.extractLsb' 0 8 = 0#8) (.vadd (w.extractLsb' 21 5) (w.extractLsb' 16 5) (w.extractLsb' 11 5) (w.extractLsb' 8 3))
  | 2 => strict (w.extractLsb' 0 8 = 0#8) (.vsub (w.extractLsb' 21 5) (w.extractLsb' 16 5) (w.extractLsb' 11 5) (w.extractLsb' 8 3))
  | 3 => strict (w.extractLsb' 0 8 = 0#8) (.vmul (w.extractLsb' 21 5) (w.extractLsb' 16 5) (w.extractLsb' 11 5) (w.extractLsb' 8 3))
  | 4 => strict (w.extractLsb' 0 8 = 0#8) (.vfma (w.extractLsb' 21 5) (w.extractLsb' 16 5) (w.extractLsb' 11 5) (w.extractLsb' 8 3))
  | 5 => strict (w.extractLsb' 0 8 = 0#8) (.vmax (w.extractLsb' 21 5) (w.extractLsb' 16 5) (w.extractLsb' 11 5) (w.extractLsb' 8 3))
  | 6 => strict (w.extractLsb' 0 8 = 0#8) (.vmin (w.extractLsb' 21 5) (w.extractLsb' 16 5) (w.extractLsb' 11 5) (w.extractLsb' 8 3))
  | 7 => strict (w.extractLsb' 0 8 = 0#8) (.vand (w.extractLsb' 21 5) (w.extractLsb' 16 5) (w.extractLsb' 11 5) (w.extractLsb' 8 3))
  | 8 => strict (w.extractLsb' 0 8 = 0#8) (.vor (w.extractLsb' 21 5) (w.extractLsb' 16 5) (w.extractLsb' 11 5) (w.extractLsb' 8 3))
  | 9 => strict (w.extractLsb' 0 8 = 0#8) (.vxor (w.extractLsb' 21 5) (w.extractLsb' 16 5) (w.extractLsb' 11 5) (w.extractLsb' 8 3))
  | 10 => strict (w.extractLsb' 0 8 = 0#8) (.vshl (w.extractLsb' 21 5) (w.extractLsb' 16 5) (w.extractLsb' 11 5) (w.extractLsb' 8 3))
  | 11 => strict (w.extractLsb' 0 8 = 0#8) (.vshr (w.extractLsb' 21 5) (w.extractLsb' 16 5) (w.extractLsb' 11 5) (w.extractLsb' 8 3))
  | 12 => strict (w.extractLsb' 11 5 = 0#5 ∧ w.extractLsb' 0 5 = 0#5) (.vcvt (w.extractLsb' 21 5) (w.extractLsb' 16 5) (w.extractLsb' 8 3) (w.extractLsb' 5 3))
  | 13 => strict (w.extractLsb' 20 1 = 0#1 ∧ w.extractLsb' 11 5 = 0#5 ∧ w.extractLsb' 0 8 = 0#8) (.vbcast (w.extractLsb' 21 5) (w.extractLsb' 16 4) (w.extractLsb' 8 3))
  | 14 => strict (w.extractLsb' 25 1 = 0#1 ∧ w.extractLsb' 11 5 = 0#5 ∧ w.extractLsb' 2 6 = 0#6) (.vred (w.extractLsb' 21 4) (w.extractLsb' 16 5) (w.extractLsb' 8 3) (w.extractLsb' 0 2))
  | 15 => strict (w.extractLsb' 0 8 = 0#8) (.vsel (w.extractLsb' 21 5) (w.extractLsb' 16 5) (w.extractLsb' 11 5) (w.extractLsb' 8 3))
  | 16 => strict (w.extractLsb' 3 5 = 0#5) (.vcmp (w.extractLsb' 21 5) (w.extractLsb' 16 5) (w.extractLsb' 11 5) (w.extractLsb' 8 3) (w.extractLsb' 0 3))
  | 17 => strict (w.extractLsb' 0 8 = 0#8) (.vmac16 (w.extractLsb' 21 5) (w.extractLsb' 16 5) (w.extractLsb' 11 5) (w.extractLsb' 8 3))
  | 18 => strict (w.extractLsb' 11 7 = 0#7) (.vrow (w.extractLsb' 21 5) (w.extractLsb' 18 3) (w.extractLsb' 8 3) (w.extractLsb' 6 2) (w.extractLsb' 0 6))
  | 19 => strict (w.extractLsb' 21 2 = 0#2 ∧ w.extractLsb' 11 5 = 0#5) (.vwacc (w.extractLsb' 23 3) (w.extractLsb' 16 5) (w.extractLsb' 8 3) (w.extractLsb' 6 2) (w.extractLsb' 0 6))
  | _ => .error .unassignedSlotOpcode

/-- The F slot, Table 14-9 (R213). -/
def decodeSlotF (w : Word32) : Except DecodeError Instr :=
  match (w.extractLsb' 26 6).toNat with
  | 0 => strict (w.extractLsb' 0 26 = 0#26) .fnop
  | 1 => strict (w.extractLsb' 0 16 = 0#16) (.fexp2 (w.extractLsb' 21 5) (w.extractLsb' 16 5))
  | 2 => strict (w.extractLsb' 0 16 = 0#16) (.flog2 (w.extractLsb' 21 5) (w.extractLsb' 16 5))
  | 3 => strict (w.extractLsb' 0 16 = 0#16) (.frcp (w.extractLsb' 21 5) (w.extractLsb' 16 5))
  | 4 => strict (w.extractLsb' 0 16 = 0#16) (.frsqrt (w.extractLsb' 21 5) (w.extractLsb' 16 5))
  | 5 => strict (w.extractLsb' 0 16 = 0#16) (.fsin (w.extractLsb' 21 5) (w.extractLsb' 16 5))
  | 6 => strict (w.extractLsb' 0 16 = 0#16) (.fcos (w.extractLsb' 21 5) (w.extractLsb' 16 5))
  | 8 => strict (w.extractLsb' 0 13 = 0#13) (.smx (w.extractLsb' 23 3) (w.extractLsb' 20 3) (w.extractLsb' 16 4) (w.extractLsb' 13 3))
  | 9 => strict (w.extractLsb' 0 20 = 0#20) (.smxm (w.extractLsb' 23 3) (w.extractLsb' 20 3))
  | 10 => strict (w.extractLsb' 0 23 = 0#23) (.smxf (w.extractLsb' 23 3))
  | 11 => strict (w.extractLsb' 0 23 = 0#23) (.smxz (w.extractLsb' 23 3))
  | _ => .error .unassignedSlotOpcode

/-- The M slot, Table 14-9 (R213). -/
def decodeSlotM (w : Word32) : Except DecodeError Instr :=
  match (w.extractLsb' 26 6).toNat with
  | 0 => strict (w.extractLsb' 0 26 = 0#26) .mnop
  | 1 => strict (w.extractLsb' 0 10 = 0#10) (.mma (w.extractLsb' 23 3) (w.extractLsb' 20 3) (w.extractLsb' 17 3) (w.extractLsb' 16 1) (w.extractLsb' 15 1) (w.extractLsb' 14 1) (w.extractLsb' 10 4))
  | 2 => strict (w.extractLsb' 0 10 = 0#10) (.mmat (w.extractLsb' 23 3) (w.extractLsb' 20 3) (w.extractLsb' 17 3) (w.extractLsb' 16 1) (w.extractLsb' 15 1) (w.extractLsb' 14 1) (w.extractLsb' 10 4))
  | 3 => strict (w.extractLsb' 0 16 = 0#16) (.xchg (w.extractLsb' 21 5) (w.extractLsb' 16 5))
  | _ => .error .unassignedSlotOpcode

/-- The E slot, Table 14-9 (R213). -/
def decodeSlotE (w : Word32) : Except DecodeError Instr :=
  match (w.extractLsb' 26 6).toNat with
  | 0 => strict (w.extractLsb' 0 26 = 0#26) .enop
  | 1 => strict (w.extractLsb' 8 18 = 0#18) (.escl (w.extractLsb' 0 8))
  | _ => .error .unassignedSlotOpcode

/-- The T slot, Table 14-9 (R213). -/
def decodeSlotT (w : Word32) : Except DecodeError Instr :=
  match (w.extractLsb' 26 6).toNat with
  | 0 => strict (w.extractLsb' 0 26 = 0#26) .tnop
  | 1 => strict (w.extractLsb' 0 6 = 0#6) (.tld (w.extractLsb' 21 5) (w.extractLsb' 18 3) (w.extractLsb' 11 7) (w.extractLsb' 6 5))
  | 2 => strict (w.extractLsb' 1 5 = 0#5) (.tstLathe (w.extractLsb' 21 5) (w.extractLsb' 18 3) (w.extractLsb' 11 7) (w.extractLsb' 6 5) (w.extractLsb' 0 1))
  | 3 => strict (w.extractLsb' 21 1 = 0#1 ∧ w.extractLsb' 2 16 = 0#16) (.tmask (w.extractLsb' 22 4) (w.extractLsb' 18 3) (w.extractLsb' 0 2))
  | 4 => if w.extractLsb' 0 1 = 0#1 then strict (w.extractLsb' 21 5 = 0#5 ∧ w.extractLsb' 1 7 = 0#7) (.tout (w.extractLsb' 16 5) (w.extractLsb' 12 4) (w.extractLsb' 8 4)) else strict (w.extractLsb' 21 5 = 0#5 ∧ w.extractLsb' 1 7 = 0#7) (.toutC (w.extractLsb' 16 5) (w.extractLsb' 12 4) (w.extractLsb' 8 4))
  | 5 => strict (w.extractLsb' 21 5 = 0#5 ∧ w.extractLsb' 0 18 = 0#18) (.tseal (w.extractLsb' 18 3))
  | _ => .error .unassignedSlotOpcode

/-- The six kinds of slot; V0 and V1, and T0 and T1, share an encoding (R212, R213). -/
inductive SlotKind where
  | s | v | f | m | e | t
  deriving DecidableEq, Repr

/-- Slot k of a bundle (R208): 0 S, 1 V0, 2 V1, 3 F, 4 M, 5 E, 6 T0, 7 T1. -/
def slotKind (k : Nat) : SlotKind :=
  match k with
  | 0 => .s | 1 => .v | 2 => .v | 3 => .f | 4 => .m | 5 => .e | _ => .t

/-- The slot kind an operation belongs to. -/
def kindOf (i : Instr) : Option SlotKind :=
  match i with
  | .snop .. | .sadd .. | .ssub .. | .smul .. | .sand .. | .sor .. | .sxor .. | .sshl .. | .sshr .. | .scmp .. | .smovi .. | .smovk .. | .sb .. | .loop .. | .qwait .. | .qpostLathe .. | .qeosLathe .. | .tretLathe .. | .getkLathe .. | .setkLathe .. | .trapsw .. => some .s
  | .vnop .. | .vadd .. | .vsub .. | .vmul .. | .vfma .. | .vmax .. | .vmin .. | .vand .. | .vor .. | .vxor .. | .vshl .. | .vshr .. | .vcvt .. | .vbcast .. | .vred .. | .vsel .. | .vcmp .. | .vmac16 .. | .vrow .. | .vwacc .. => some .v
  | .fnop .. | .fexp2 .. | .flog2 .. | .frcp .. | .frsqrt .. | .fsin .. | .fcos .. | .smx .. | .smxm .. | .smxf .. | .smxz .. => some .f
  | .mnop .. | .mma .. | .mmat .. | .xchg .. => some .m
  | .enop .. | .escl .. => some .e
  | .tnop .. | .tld .. | .tstLathe .. | .tmask .. | .tout .. | .toutC .. | .tseal .. => some .t
  | _ => none

/-- The field values that Tables 14-6 to 14-9 and R202, R280 to R311 do not mark illegal. -/
def slotValueLegal (i : Instr) : Bool :=
  match i with
  | .sadd _ _ i imm => decide (i = 0#1 → imm.extractLsb' 0 13 = 0#13)
  | .ssub _ _ i imm => decide (i = 0#1 → imm.extractLsb' 0 13 = 0#13)
  | .smul _ _ i imm => decide (i = 0#1 → imm.extractLsb' 0 13 = 0#13)
  | .sand _ _ i imm => decide (i = 0#1 → imm.extractLsb' 0 13 = 0#13)
  | .sor _ _ i imm => decide (i = 0#1 → imm.extractLsb' 0 13 = 0#13)
  | .sxor _ _ i imm => decide (i = 0#1 → imm.extractLsb' 0 13 = 0#13)
  | .sshl _ _ i imm => decide ((i = 0#1 → imm.extractLsb' 0 13 = 0#13) ∧ (i = 1#1 → imm ≤ 31#17))
  | .sshr _ _ i imm => decide ((i = 0#1 → imm.extractLsb' 0 13 = 0#13) ∧ (i = 1#1 → imm ≤ 31#17))
  | .scmp _ _ _ cc => decide (cc ≤ 5#3)
  | .sb cond qa _ => decide (cond ≠ 3#2 ∧ (cond = 0#2 → qa = 0#4))
  | .loop i qa imm => decide ((i = 0#1 → imm = 0#16) ∧ (i = 1#1 → qa = 0#4))
  | .vadd _ _ _ ty => decide (ty ≠ 7#3)
  | .vsub _ _ _ ty => decide (ty ≠ 7#3)
  | .vmul _ _ _ ty => decide (ty ≠ 7#3)
  | .vfma _ _ _ ty => decide (ty ≠ 7#3)
  | .vmax _ _ _ ty => decide (ty ≠ 7#3)
  | .vmin _ _ _ ty => decide (ty ≠ 7#3)
  | .vand _ _ _ ty => decide (isIntTy ty)
  | .vor _ _ _ ty => decide (isIntTy ty)
  | .vxor _ _ _ ty => decide (isIntTy ty)
  | .vshl _ _ _ ty => decide (isIntTy ty)
  | .vshr _ _ _ ty => decide (isIntTy ty)
  | .vcvt vd va ty st => decide (ty ≠ 7#3 ∧ st ≠ 7#3 ∧ ty ≠ st ∧ cvtGroups vd va ty st)
  | .vbcast _ _ ty => decide (ty ≠ 7#3)
  | .vred _ _ ty op => decide (ty ≠ 7#3 ∧ op ≠ 3#2)
  | .vsel _ _ _ ty => decide (ty ≠ 7#3)
  | .vcmp _ _ _ ty cc => decide (ty ≠ 7#3 ∧ cc ≤ 5#3 ∧ (isFloatTy ty → cc ≤ 3#3))
  | .vmac16 _ _ _ ty => decide (ty = 3#3 ∨ ty = 4#3)
  | .vrow _ _ ty part row => decide ((ty = 0#3 ∨ ty = 2#3) ∧ (part ≠ 0#2 → row = 0#6))
  | .vwacc _ _ ty part row => decide ((ty = 0#3 ∨ ty = 2#3) ∧ (part ≠ 0#2 → row = 0#6))
  | .smx ao asc _ _ => decide (ao ≠ asc)
  | .smxm ad ae => decide (ad ≠ ae)
  | _ => true

/-- The fields of a slot word, by the slot's table. -/
def decodeSlotRaw (kind : SlotKind) (w : Word32) : Except DecodeError Instr :=
  match kind with
  | .s => decodeSlotS w | .v => decodeSlotV w | .f => decodeSlotF w
  | .m => decodeSlotM w | .e => decodeSlotE w | .t => decodeSlotT w

/-- Reads one slot word (R210 to R213). -/
def decodeSlot (kind : SlotKind) (w : Word32) : Except DecodeError Instr :=
  match decodeSlotRaw kind w with
  | .ok i => if slotValueLegal i then .ok i else .error .illegalValue
  | .error e => .error e

/-- The slot word of a Lathe operation (Tables 14-6 to 14-9); none for an instruction that is no Lathe operation. -/
def encodeSlot (i : Instr) : Option Word32 :=
  match i with
  | .snop => some (0#6 ++ 0#26)
  | .sadd qd qa i imm => some (1#6 ++ qd ++ qa ++ i ++ imm)
  | .ssub qd qa i imm => some (2#6 ++ qd ++ qa ++ i ++ imm)
  | .smul qd qa i imm => some (3#6 ++ qd ++ qa ++ i ++ imm)
  | .sand qd qa i imm => some (4#6 ++ qd ++ qa ++ i ++ imm)
  | .sor qd qa i imm => some (5#6 ++ qd ++ qa ++ i ++ imm)
  | .sxor qd qa i imm => some (6#6 ++ qd ++ qa ++ i ++ imm)
  | .sshl qd qa i imm => some (7#6 ++ qd ++ qa ++ i ++ imm)
  | .sshr qd qa i imm => some (8#6 ++ qd ++ qa ++ i ++ imm)
  | .scmp qd qa qb cc => some (9#6 ++ qd ++ qa ++ 0#1 ++ qb ++ cc ++ 0#10)
  | .smovi qd imm => some (10#6 ++ qd ++ imm)
  | .smovk qd index => some (11#6 ++ qd ++ 0#14 ++ index)
  | .sb cond qa disp => some (12#6 ++ cond ++ 0#2 ++ qa ++ 0#2 ++ disp)
  | .loop i qa imm => some (13#6 ++ i ++ 0#3 ++ qa ++ 0#2 ++ imm)
  | .qwait hd qd => some (14#6 ++ hd ++ 0#1 ++ qd ++ 0#18)
  | .qpostLathe l h => some (15#6 ++ l ++ 0#1 ++ h ++ 0#20)
  | .qeosLathe l => some (16#6 ++ l ++ 0#24)
  | .tretLathe h => some (17#6 ++ h ++ 0#23)
  | .getkLathe qd k => some (18#6 ++ qd ++ 0#16 ++ k)
  | .setkLathe qa k => some (19#6 ++ 0#4 ++ qa ++ 0#12 ++ k)
  | .trapsw code => some (20#6 ++ 0#14 ++ code)
  | .vnop => some (0#6 ++ 0#26)
  | .vadd vd va vb ty => some (1#6 ++ vd ++ va ++ vb ++ ty ++ 0#8)
  | .vsub vd va vb ty => some (2#6 ++ vd ++ va ++ vb ++ ty ++ 0#8)
  | .vmul vd va vb ty => some (3#6 ++ vd ++ va ++ vb ++ ty ++ 0#8)
  | .vfma vd va vb ty => some (4#6 ++ vd ++ va ++ vb ++ ty ++ 0#8)
  | .vmax vd va vb ty => some (5#6 ++ vd ++ va ++ vb ++ ty ++ 0#8)
  | .vmin vd va vb ty => some (6#6 ++ vd ++ va ++ vb ++ ty ++ 0#8)
  | .vand vd va vb ty => some (7#6 ++ vd ++ va ++ vb ++ ty ++ 0#8)
  | .vor vd va vb ty => some (8#6 ++ vd ++ va ++ vb ++ ty ++ 0#8)
  | .vxor vd va vb ty => some (9#6 ++ vd ++ va ++ vb ++ ty ++ 0#8)
  | .vshl vd va vb ty => some (10#6 ++ vd ++ va ++ vb ++ ty ++ 0#8)
  | .vshr vd va vb ty => some (11#6 ++ vd ++ va ++ vb ++ ty ++ 0#8)
  | .vcvt vd va ty st => some (12#6 ++ vd ++ va ++ 0#5 ++ ty ++ st ++ 0#5)
  | .vbcast vd qa ty => some (13#6 ++ vd ++ 0#1 ++ qa ++ 0#5 ++ ty ++ 0#8)
  | .vred qd va ty op => some (14#6 ++ 0#1 ++ qd ++ va ++ 0#5 ++ ty ++ 0#6 ++ op)
  | .vsel vd va vb ty => some (15#6 ++ vd ++ va ++ vb ++ ty ++ 0#8)
  | .vcmp vd va vb ty cc => some (16#6 ++ vd ++ va ++ vb ++ ty ++ 0#5 ++ cc)
  | .vmac16 vd va vb ty => some (17#6 ++ vd ++ va ++ vb ++ ty ++ 0#8)
  | .vrow vd acc ty part row => some (18#6 ++ vd ++ acc ++ 0#7 ++ ty ++ part ++ row)
  | .vwacc acc va ty part row => some (19#6 ++ acc ++ 0#2 ++ va ++ 0#5 ++ ty ++ part ++ row)
  | .fnop => some (0#6 ++ 0#26)
  | .fexp2 vd va => some (1#6 ++ vd ++ va ++ 0#16)
  | .flog2 vd va => some (2#6 ++ vd ++ va ++ 0#16)
  | .frcp vd va => some (3#6 ++ vd ++ va ++ 0#16)
  | .frsqrt vd va => some (4#6 ++ vd ++ va ++ 0#16)
  | .fsin vd va => some (5#6 ++ vd ++ va ++ 0#16)
  | .fcos vd va => some (6#6 ++ vd ++ va ++ 0#16)
  | .smx ao asc qs hout => some (8#6 ++ ao ++ asc ++ qs ++ hout ++ 0#13)
  | .smxm ad ae => some (9#6 ++ ad ++ ae ++ 0#20)
  | .smxf acc => some (10#6 ++ acc ++ 0#23)
  | .smxz acc => some (11#6 ++ acc ++ 0#23)
  | .mnop => some (0#6 ++ 0#26)
  | .mma ad hA hB na nb dis qo => some (1#6 ++ ad ++ hA ++ hB ++ na ++ nb ++ dis ++ qo ++ 0#10)
  | .mmat ad hA hB na nb dis qo => some (2#6 ++ ad ++ hA ++ hB ++ na ++ nb ++ dis ++ qo ++ 0#10)
  | .xchg vd va => some (3#6 ++ vd ++ va ++ 0#16)
  | .enop => some (0#6 ++ 0#26)
  | .escl e => some (1#6 ++ 0#18 ++ e)
  | .tnop => some (0#6 ++ 0#26)
  | .tld vd h row chunk => some (1#6 ++ vd ++ h ++ row ++ chunk ++ 0#6)
  | .tstLathe va h row chunk fin => some (2#6 ++ va ++ h ++ row ++ chunk ++ 0#5 ++ fin)
  | .tmask qd h sel => some (3#6 ++ qd ++ 0#1 ++ h ++ 0#16 ++ sel)
  | .tout va qa qb => some (4#6 ++ 0#5 ++ va ++ qa ++ qb ++ 0#7 ++ 0#1)
  | .toutC va qa qb => some (4#6 ++ 0#5 ++ va ++ qa ++ qb ++ 0#7 ++ 1#1)
  | .tseal h => some (5#6 ++ 0#5 ++ h ++ 0#18)
  | _ => none

end Sys2Proof
end

