-- ==== Sys2Proof/Machine/MatMath.lean ====
section
/-! DEFINITION. The arithmetic of matrix groups, of the softmax step, its merge and its finalisation, and the decoding of WF8: the
functions that the Lathes and the clappers share (R29 to R32, R36 to R40). -/

namespace Sys2Proof.Machine

/-! ### Vectors as numbers (R2) -/

/-- The n elements of w bits of a vector, lowest first. -/
def unpackElems (w : Nat) : Nat → Nat → List Nat
  | 0, _ => []
  | n + 1, v => v % 2 ^ w :: unpackElems w n (v / 2 ^ w)

/-- The vector whose elements of w bits are given, lowest first. -/
def packElems (w : Nat) : List Nat → Nat
  | [] => 0
  | x :: r => x % 2 ^ w + 2 ^ w * packElems w r

/-- A list cut into pieces of g. -/
def pieces {α : Type} (g : Nat) : Nat → List α → List (List α)
  | 0, _ => []
  | n + 1, l => if l.isEmpty then [] else l.take g :: pieces g n (l.drop g)

/-! ### Matrix groups (R36, R37, Table 18-2) -/

/-- A class of matrix operation: rows and columns of C, K, the group size, the accumulator form. -/
structure MatClass where
  m : Nat
  k : Nat
  g : Nat
  form : AccForm
  deriving DecidableEq, Repr

/-- Table 18-2: the class of a pair of formats; none for tiles of different classes and for formats that are no matrix operand. -/
def matClass (fa fb : Nat) : Option MatClass :=
  let f8 := fun (f : Nat) => decide (12 ≤ f) && decide (f ≤ 14)
  let i8 := fun (f : Nat) => f == 1 || f == 2
  let f16 := fun (f : Nat) => f == 10 || f == 11
  if f8 fa && f8 fb then some { m := 64, k := 64, g := 32, form := .fp32 }
  else if i8 fa && i8 fb then some { m := 64, k := 64, g := 32, form := .int32 }
  else if f16 fa && f16 fb then some { m := 64, k := 32, g := 16, form := .fp32 }
  else if fa == 9 && fb == 9 then some { m := 64, k := 8, g := 8, form := .fp32 }
  else if fa == 8 && fb == 8 then some { m := 32, k := 16, g := 8, form := .fp64 }
  else none

/-- The exact value of an element of a matrix operand; a WF8 element has been expanded to E4M3. -/
def operandFV (fmt v : Nat) : FV := toFV (fmtOfCode (if fmt = 14 then 12 else fmt)) v

/-- The exact value of an i8 or z8 element. -/
def operandInt (fmt v : Nat) : Int := if fmt = 1 then sextInt 8 v else ((v % 256 : Nat) : Int)

/-- R36: the groups of products, scaled by 2^e, rounded and added in turn; the first replaces the element when accumulation is
disabled. -/
def addGroups (f : FFmt) (e : Int) : List (List FV) → Bool → Nat → Nat
  | [], _, acc => acc
  | g :: r, first, acc =>
    let v := ofFV f ((FV.sum g).scale e)
    addGroups f e r false (if first then v else faddCode f acc v)

/-- x·2^e as an integer, ties to even (R37). -/
def scaleInt (x : Int) (e : Int) : Int := roundInt (decide (x < 0)) x.natAbs e

/-- R37: the same for integer products, modulo 2^32. -/
def addIntGroups (e : Int) : List (List Int) → Bool → Nat → Nat
  | [], _, acc => acc
  | g :: r, first, acc =>
    let v := scaleInt (g.foldl (· + ·) 0) e
    addIntGroups e r false (wrapInt 32 (if first then v else (acc : Int) + v))

/-- The exact products of a row of A and a column of B, negated as na and nb say (R301). -/
def floatProducts (op : MatOp) (a b : List Nat) : List FV :=
  (a.zip b).map (fun p =>
    let x := (operandFV op.fmtA p.1).mul (operandFV op.fmtB p.2)
    if op.na != op.nb then x.neg else x)

def intProducts (op : MatOp) (a b : List Nat) : List Int :=
  (a.zip b).map (fun p =>
    let x := operandInt op.fmtA p.1 * operandInt op.fmtB p.2
    if op.na != op.nb then -x else x)

/-- The bits of an element of an accumulator (R300). -/
def formWidth (f : AccForm) : Nat :=
  match f with
  | .fp64 => 64
  | _ => 32

/-- One element of C (R301). -/
def matElem (op : MatOp) (g : Nat) (a b : List Nat) (acc : Nat) : Nat :=
  match op.form with
  | .int32 => addIntGroups op.e (pieces g 8 (intProducts op a b)) op.dis acc
  | .fp32 => addGroups fp32 op.e (pieces g 8 (floatProducts op a b)) op.dis acc
  | .fp64 => addGroups fp64 op.e (pieces g 8 (floatProducts op a b)) op.dis acc

/-- A row of an accumulator as its elements. -/
def Acc.rowElems (x : Acc) (i : Nat) : List Nat :=
  let w := formWidth x.form
  unpackElems w (2048 / w) (Map.get x.rows i 0).toNat

/-- An accumulator with a row replaced. -/
def Acc.setRow (x : Acc) (i : Nat) (els : List Nat) : Acc :=
  { x with rows := Map.set x.rows i (BitVec.ofNat 2048 (packElems (formWidth x.form) els)) }

/-- R301: a matrix operation lands in its accumulator. -/
def applyMat (op : MatOp) (x : Acc) : Acc :=
  match matClass op.fmtA op.fmtB with
  | none => x
  | some c =>
    let y := if op.dis then { x with form := op.form, rows := if op.form = .fp64 then [] else x.rows } else x
    let z := ((numsFrom 0 c.m).zip op.a).foldl (fun (t : Acc) r =>
      t.setRow r.1 ((op.b.zip (y.rowElems r.1)).map (fun p => matElem op c.g r.2 p.1 p.2))) y
    { z with cv := if op.dis then op.cv else x.cv &&& op.cv }

/-! ### Softmax (R38, R39) -/

/-- −∞ in FP32. -/
def ninf32 : Nat := 0xFF800000

/-- The softmax state of a row. -/
structure RowState where
  m : Nat := ninf32
  l : Nat := 0
  nan : Bool := false
  o : List Nat := List.replicate 64 0
  deriving DecidableEq, Repr

/-- The NaN row. -/
def nanRow : RowState := { m := fp32.nan, l := fp32.nan, nan := true, o := List.replicate 64 fp32.nan }

/-- sat to the finite range of FP32 (R21); a NaN never reaches it. -/
def satFp32 (v : Nat) : Nat := if v = 0x7F800000 then 0x7F7FFFFF else if v = ninf32 then 0xFF7FFFFF else v

/-- R38: a softmax step of one row: scores, the valid columns, the scale; the new state and the row of P in BF16.
DESIGN CHOICE, unsafe: assumption 82. -/
def softmaxStep (r : RowState) (sc : List Nat) (valid : List Bool) (scale : Nat) : RowState × List Nat :=
  let prods := (sc.zip valid).map (fun p => (p.2, fmulCode fp32 p.1 scale))
  if r.nan || isNanCode fp32 r.m || isNanCode fp32 scale || prods.any (fun p => p.1 && isNanCode fp32 p.2) then
    (nanRow, List.replicate 64 bf16.nan)
  else if !valid.any id then (r, List.replicate 64 0)
  else
    let xv := prods.map (fun p => (p.1, satFp32 p.2))
    let mn := xv.foldl (fun m p => if p.1 then fmaxCode fp32 m p.2 else m) r.m
    let c := if r.m = ninf32 then 0 else exp2t (fsubCode fp32 r.m mn)
    let ps := xv.map (fun p => if p.1 then fcvtCode fp32 bf16 (exp2t (fsubCode fp32 p.2 mn)) else 0)
    let l := (xv.zip ps).foldl (fun a p => if p.1.1 then faddCode fp32 a (fcvtCode bf16 fp32 p.2) else a) (fmulCode fp32 c r.l)
    ({ m := mn, l := l, nan := r.nan, o := r.o.map (fun x => fmulCode fp32 x c) }, ps)

/-- R39: state e merged into state d.
DESIGN CHOICE, unsafe: assumption 82. -/
def softmaxMerge (d e : RowState) : RowState :=
  if d.nan || e.nan then nanRow
  else if e.m = ninf32 then d
  else if d.m = ninf32 then { d with m := e.m, l := e.l, o := e.o }
  else
    let mn := fmaxCode fp32 d.m e.m
    let cd := exp2t (fsubCode fp32 d.m mn)
    let ce := exp2t (fsubCode fp32 e.m mn)
    let mix := fun (x y : Nat) => faddCode fp32 (fmulCode fp32 cd x) (fmulCode fp32 ce y)
    { m := mn, l := mix d.l e.l, nan := false, o := (d.o.zip e.o).map (fun p => mix p.1 p.2) }

/-- R39: a row finalised. -/
def softmaxFinal (r : RowState) : RowState :=
  if r.nan then { r with o := r.o.map (fun _ => fp32.nan) }
  else if bitsOf r.l 30 23 = 0 then { r with o := r.o.map (fun _ => 0) }
  else { r with o := r.o.map (fun x => fmulCode fp32 x (frcp r.l)) }

/-- The softmax state that row i of an accumulator holds. -/
def Acc.rowState (x : Acc) (i : Nat) : RowState :=
  { m := (Map.get x.m i (BitVec.ofNat 32 ninf32)).toNat, l := (Map.get x.l i 0).toNat, nan := x.nan.getLsbD i, o := x.rowElems i }

/-- An accumulator with the softmax state of a row replaced. -/
def Acc.setRowState (x : Acc) (i : Nat) (r : RowState) : Acc :=
  let y := x.setRow i r.o
  { y with m := Map.set x.m i (BitVec.ofNat 32 r.m), l := Map.set x.l i (BitVec.ofNat 32 r.l),
           nan := BitVec.ofNat 64 (setBits x.nan.toNat i i (b2n r.nan)) }

/-- The empty state (R38, R84, R311). -/
def emptyAcc : Acc := { cv := BitVec.allOnes 64 }

/-! ### WF8 (R29 to R32) -/

/-- Bit k of a payload (R30). -/
def streamBit (pay : List Byte) (k : Nat) : Nat := b2n ((pay.getD (k / 8) 0).getLsbD (7 - k % 8))

/-- n bits of the stream from bit k, most significant first. -/
def streamBits (pay : List Byte) (k : Nat) : Nat → Nat
  | 0 => 0
  | n + 1 => 2 ^ n * streamBit pay k + streamBits pay (k + 1) n

/-- Table 2-6: the delta coded at bit k, and the bits it takes; none for a literal of 0 to 3. -/
def wf8Delta (pay : List Byte) (k : Nat) : Option (Nat × Nat) :=
  if streamBit pay k = 0 then some (0, 1)
  else if streamBit pay (k + 1) = 0 then some (1, 2)
  else if streamBit pay (k + 2) = 0 then some (2, 3)
  else if streamBit pay (k + 3) = 0 then some (3, 4)
  else
    let d := streamBits pay (k + 4) 4
    if d < 4 then none else some (d, 8)

/-- n elements from bit k: their E4M3 codes, and the bit after the last. -/
def wf8Elems (pay : List Byte) (base : Nat) : Nat → Nat → Option (List Nat × Nat)
  | 0, k => some ([], k)
  | n + 1, k =>
    match wf8Delta pay k with
    | none => none
    | some (d, w) =>
      if 15 < base + d then none
      else
        match wf8Elems pay base n (k + w + 4) with
        | none => none
        | some (r, q) =>
          some ((streamBit pay (k + w) * 128 + (base + d) * 8 + streamBits pay (k + w + 1) 3) :: r, q)

/-- A block of n elements at the start of a list of bytes: its elements and its length (R29, R32). -/
def wf8Block (bs : List Byte) (n : Nat) : Option (List Nat × Nat) :=
  let h := leNat (bs.take 2)
  let plen := bitsOf h 11 0
  let pay := bs.drop 2
  match wf8Elems pay (bitsOf h 15 12) n 0 with
  | none => none
  | some (els, k) =>
    if plen = (k + 7) / 8 ∧ streamBits pay k (8 * plen - k) = 0 then some (els, roundUp (2 + plen) 2) else none

/-- The elements of a row of cols elements in blocks of n (R31); none where a block is wrong. -/
def wf8Row (n : Nat) : Nat → List Byte → Nat → Option (List Nat)
  | 0, _, _ => some []
  | fuel + 1, bs, cols =>
    if cols = 0 then some []
    else
      match wf8Block bs (min n cols) with
      | none => none
      | some (els, len) =>
        match wf8Row n fuel (bs.drop len) (cols - min n cols) with
        | none => none
        | some r => some (els ++ r)

end Sys2Proof.Machine
end

