-- ==== Sys2Proof/Machine/Transfer.lean ====
section
/-! DEFINITION. The data of Chuck transfers: accesses under a request, and what each operation does with one tuple, update, record or
row (R192, R318, R321 to R324, Tables 19-1 to 19-4). -/

namespace Sys2Proof.Machine

/-! ### Request words (Tables 14-10, 19-2) -/

/-- Word i of a request. -/
def Request.word (q : Request) (i : Nat) : Nat := (q.w.getD i 0).toNat
def Request.op (q : Request) : Nat := bitsOf (q.word 0) 63 56
def Request.dwr (q : Request) : Bool := (q.word 0).testBit 50
def Request.quiet (q : Request) : Bool := (q.word 0).testBit 49
def Request.rowfin (q : Request) : Bool := (q.word 0).testBit 48
def Request.xid (q : Request) : Nat := bitsOf (q.word 0) 47 32
/-- The va of a pointer word. -/
def Request.va (q : Request) (i : Nat) : Nat := q.word i % 2 ^ 56
/-- The format code of a pointer word. -/
def Request.fmt (q : Request) (i : Nat) : Nat := bitsOf (q.word i) 63 59
/-- The element size (R320). -/
def Request.es (q : Request) : Nat := elemSize (q.fmt 1)

/-- Word i of the parameter block. -/
def Xfer.par (x : Xfer) (i : Nat) : Nat := (x.blk.getD i 0).toNat
def Xfer.cnt (x : Xfer) (i : Nat) : Nat := bitsOf (x.par (2 * i)) 23 0
def Xfer.sstr (x : Xfer) (i : Nat) : Int := sextInt 40 (bitsOf (x.par (2 * i)) 63 24)
def Xfer.dstr (x : Xfer) (i : Nat) : Int := sextInt 40 (bitsOf (x.par (2 * i + 1)) 63 24)
/-- The product of the counts. -/
def Xfer.nest (x : Xfer) : Nat := (numsFrom 0 6).foldl (fun n i => n * x.cnt i) 1

/-- The offset of tuple t along strides: i0 varies fastest. -/
def nestOffset (cnt : Nat → Nat) (str : Nat → Int) : Nat → Nat → Nat → Int
  | 0, _, _ => 0
  | n + 1, i, t => ((t % cnt i : Nat) : Int) * str i + nestOffset cnt str n (i + 1) (t / cnt i)

def Xfer.srcOff (x : Xfer) (t : Nat) : Int := nestOffset x.cnt x.sstr 6 0 t
def Xfer.dstOff (x : Xfer) (t : Nat) : Int := nestOffset x.cnt x.dstr 6 0 t

/-- An address and an offset, modulo 2^56. -/
def vaPlus (va : Nat) (off : Int) : Nat := wrapInt 56 ((va : Int) + off)

/-! ### Statuses (Table 19-4, R326) -/

/-- The statuses that stop a transfer. -/
def chuckStops (st : Nat) : Bool := [7, 8, 9, 18, 19, 20, 22].contains st

/-- Tuple n ended with a status other than DONE: the earliest such tuple decides what the completion reports. -/
def Xfer.err (x : Xfer) (n st faddr reason : Nat) : Xfer :=
  let x1 := if x.status = 0 ∨ n < x.statusAt then
      { x with status := st, statusAt := n, faddr := if st = 18 ∨ st = 19 then BitVec.ofNat 64 faddr else 0, reason := reason }
    else x
  if chuckStops st then { x1 with stopAt := some (min n (x.stopAt.getD n)) } else x1

/-- What an access of a transfer comes to. -/
inductive CRes (α : Type) where
  | ok (v : α)
  | bad (status faddr reason : Nat)
  | wait                        -- an absent page, a busy bin, a full log, a link answer: it goes on later
  deriving DecidableEq

/-- Goes on after an access that succeeded. -/
def cThen {α β : Type} (r : State × CRes α) (f : State → α → State × CRes β) : State × CRes β :=
  match r with
  | (s, .ok v) => f s v
  | (s, .bad st fa re) => (s, .bad st fa re)
  | (s, .wait) => (s, .wait)

/-! ### Accesses -/

/-- R321: an address of a request is translated in user mode; a private-window address denotes the arena of the pushing thread. Whether
the page is an MK page comes with it. -/
def State.chuckXlate (s : State) (cl : Nat) (x : Xfer) (va : Nat) (acc : Acc3) : State × CRes (Tgt × Bool) :=
  let q := x.req
  let go := fun (a : Nat) (exempt : Bool) => match s.engineXlate (.xfer cl x.id) cl q.ctx a acc true exempt with
    | (s1, .ok e pa) => (s1, CRes.ok (tgtOf e pa, e.mark))
    | (s1, .fault r) => (s1, .bad 18 va r)
    | (s1, _) => (s1, .wait)
  match windowOf va with
  | .none => (s, .bad 18 va 1)
  | .scratch off => (s, .ok (.sp (spAddr cl off), false))
  | .priv off => if q.lathe.isSome then (s, .bad 18 va 1) else go (s.arena q.ctx q.tid off) true
  | .global => go va false

/-- A link read of the transfer has not been answered. -/
def State.xferAsks (s : State) (cl id : Nat) : Bool :=
  let mine := fun (w : LinkWho) => match w with
    | .xferRead c i _ => c == cl && i == id
    | _ => false
  s.links.reqs.any (fun r => mine r.who) || s.links.egress.any (fun e => mine e.who)

/-- A link write of the transfer has not been answered. -/
def State.xferWrites (s : State) (cl id : Nat) : Bool :=
  let mine := fun (w : LinkWho) => match w with
    | .xfer c i _ => c == cl && i == id
    | _ => false
  s.links.reqs.any (fun r => mine r.who) || s.links.egress.any (fun e => mine e.who)

/-- A read of n bytes by the step at hand of a transfer searches the log; a step that waits and begins again has been debited for it once
(R112, R160). None: it must wait for the eviction balance.
DESIGN CHOICE, unsafe: assumption 92. -/
def State.xferLooks (s : State) (cl : Nat) (x : Xfer) (pa n : Nat) : Option State :=
  let c := s.cluster cl
  let q := x.req
  if c.looked.contains (x.id, pa, n) then some s
  else if s.lookupWaits cl q.ctx q.hyp pa n then none
  else if s.logReads q.ctx q.hyp pa n = 0 then some (s.lookedUp cl q.ctx q.hyp pa n)
  else some (State.setCluster (s.lookedUp cl q.ctx q.hyp pa n) cl
    { (s.lookedUp cl q.ctx q.hyp pa n).cluster cl with looked := (x.id, pa, n) :: c.looked })

/-- The step at hand of a transfer is over. -/
def State.stepOver (s : State) (cl id : Nat) : State :=
  let c := s.cluster cl
  if c.looked.any (fun e => e.1 == id) then s.setCluster cl { c with looked := c.looked.filter (fun e => e.1 != id) } else s

/-- A read under the request's hypothesis (R321); bytes of another module are asked for by a link READ (R192). -/
def State.chuckRead (s : State) (cl : Nat) (x : Xfer) (t : Tgt) (n : Nat) : State × CRes (List Byte) :=
  match t with
  | .sp a => if s.spPoisoned a n then (s, .bad 10 0 0) else (s.tookFree, .ok (s.spBytes a n))
  | .hbm pa =>
    if s.poisoned pa n then (s, .bad 10 0 0)
    else match s.xferLooks cl x pa n with
      | some s1 => (s1, .ok (s.visBytes x.req.ctx x.req.hyp pa n))
      | none => (s, .wait)
  | .host pa => if s.hostFails pa n then (s, .bad 10 0 5) else (s, .ok (Memory.readBytes s.host pa n))
  | .remote rmod pa =>
    match x.fetched.find? (fun e => e.rmod == rmod && e.pa == pa) with
    | some e => if e.status ≠ 0 then (s, .bad e.status 0 5) else (s, .ok (e.bytes.take n))
    | none =>
      if s.xferAsks cl x.id then (s, .wait)
      else (s.egress cl x.req.ctx { op := 2, dst := rmod, src := s.links.lmod, len := n - 1, addr := pa } (.xferRead cl x.id x.pos), .wait)

/-- A packet of a transfer joins the last one at the egress where it carries on its bytes within one WRITE or TILEWR (R191); the answer is
that of the earliest tuple whose bytes it holds (R326). -/
def State.egressJoin (s : State) (cl ctx id tuple : Nat) (p : Packet) : State :=
  let fresh := s.egress cl ctx p (.xfer cl id tuple)
  match s.links.egress.getLast? with
  | none => fresh
  | some e =>
    let before : Option Nat := match e.who with
      | .xfer c i m => if c = cl ∧ i = id then some m else none
      | _ => none
    let n := e.p.pay.length
    let follows : Bool := if p.op = 5 then p.addr == e.p.addr + n * 2 ^ 41 && e.p.flags == 0
      else p.op == 1 && p.addr == e.p.addr + n && p.addr / 256 == e.p.addr / 256
    if before.isSome && e.p.op == p.op && e.p.dst == p.dst && e.p.ctx == p.ctx && follows && decide (n + p.pay.length ≤ 256) then
      let q := { e.p with pay := e.p.pay ++ p.pay, len := n + p.pay.length - 1, flags := p.flags }
      { s with links := { s.links with egress := s.links.egress.dropLast ++ [{ e with p := q, who := .xfer cl id (min tuple (before.getD tuple)) }] } }
    else fresh

/-- The global address that an address of a request denotes (R43, R321). -/
def State.requestVa (s : State) (q : Request) (va : Nat) : Nat :=
  match windowOf va with
  | .priv off => s.arena q.ctx q.tid off
  | _ => va

/-- A write at an address under the request's hypothesis, for its tuple n. -/
def State.chuckWrite (s : State) (cl : Nat) (x : Xfer) (t : Tgt) (va n : Nat) (bs : List Byte) : State × CRes Unit :=
  match t with
  | .sp a => (s.spStore a bs, .ok ())
  | .hbm pa =>
    match s.perform cl x.req.ctx x.req.hyp pa (s.requestVa x.req va) bs with
    | (s1, some w) => (s1.stuckAt w, .wait)
    | (s1, none) => (s1, .ok ())
  | .host pa => ({ s with host := Memory.writeBytes s.host pa bs }, .ok ())
  | .remote rmod pa =>
    (s.egressJoin cl x.req.ctx x.id n
      { op := 1, dst := rmod, src := s.links.lmod, len := bs.length - 1, addr := pa, pay := bs }, .ok ())

/-- Scratchpad bytes that no transfer writes through the window: the constant windows (R86), and tiles, whose bytes enter by the tile port
alone (R12, R131). The status is FAULT.
DESIGN CHOICE, unsafe: assumption 77. -/
def State.windowBar (s : State) (t : Tgt × Bool) (n : Nat) : Bool :=
  match t.1 with
  | .sp a => decide (a % 2 ^ 22 < 0x5000) || s.tileOwned a n
  | _ => false

/-- R158, R321, R364: what forbids a destination for an element from a page. -/
def destBar (x : Xfer) (srcMk : Bool) (dst : Tgt × Bool) : Option Nat :=
  match dst.1 with
  | .sp _ => none
  | .hbm _ => if srcMk && !dst.2 then some 7 else none
  | _ => if x.req.hyp ≠ 0 then some 22 else if srcMk then some 7 else none

/-- The address of an element must be a multiple of its size. -/
def State.chuckAlign (s : State) (va n : Nat) : State × CRes Unit := if va % n ≠ 0 then (s, .bad 19 va 0) else (s, .ok ())

/-- The destination is a tile. -/
def Request.toTile (q : Request) : Bool := q.op == 2 || q.op == 4

/-- Bytes read at an address, with those that the transfer has still to write over them. -/
def Xfer.overlay (x : Xfer) (va : Nat) (bs : List Byte) : List Byte :=
  if x.req.toTile then bs else (bs.zip (numsFrom va bs.length)).map (fun p => ((Map.find? x.held p.2).map (·.1)).getD p.1)

/-- A read of n bytes at an address, aligned to them, with the MK attribute of its page. -/
def State.chuckLoad (s : State) (cl : Nat) (x : Xfer) (va n : Nat) : State × CRes (List Byte × Bool) :=
  cThen (s.chuckAlign va n) (fun s _ =>
    cThen (s.chuckXlate cl x va .read) (fun s t =>
      cThen (s.chuckRead cl x t.1 n) (fun s bs => (s, .ok (x.overlay va bs, t.2)))))

/-- A read of n bytes at any address: the pieces that it has in two pages or blocks are read one after the other. -/
def State.chuckSpan (s : State) (cl : Nat) (x : Xfer) (va n : Nat) : State × CRes (List Byte × Bool) :=
  let k := 256 - va % 256
  let part := fun (s : State) (a m : Nat) => cThen (s.chuckXlate cl x a .read) (fun s t =>
    cThen (s.chuckRead cl x t.1 m) (fun s bs => (s, CRes.ok (bs, t.2))))
  if n ≤ k then part s va n
  else cThen (part s va k) (fun s u => cThen (part s (vaPlus va (k : Int)) (n - k)) (fun s v => (s, .ok (u.1 ++ v.1, u.2 || v.2))))

/-- The target of a write of n bytes at an address, for data from a page. -/
def State.chuckDest (s : State) (cl : Nat) (x : Xfer) (va n : Nat) (srcMk : Bool) : State × CRes Tgt :=
  cThen (s.chuckAlign va n) (fun s _ =>
    cThen (s.chuckXlate cl x va .write) (fun s t =>
      match destBar x srcMk t with
      | some st => (s, .bad st 0 0)
      | none => if s.windowBar t n then (s, .bad 18 va 0) else (s, .ok t.1)))

/-! ### Bytes on their way to memory (R50, R64)

The bytes that a transfer puts into memory, or into a tile, are collected, and a 32-byte sector is written as soon as it is whole, in one
event: no other agent finds a part of it. What makes no whole sector is written when the transfer has no more to do, or when the row of a
tile ends. -/

/-- Bytes from an address on are collected. -/
def Xfer.hold (x : Xfer) (va : Nat) (mk : Bool) : List Byte → Xfer
  | [] => x
  | b :: r => Xfer.hold { x with held := Map.set x.held va (b, ((Map.find? x.held va).map (·.2.1)).getD x.pos, mk) } ((va + 1) % 2 ^ 56) mk r

/-- The first address of a sector whose 32 bytes are all collected or, at the end, of which any is. -/
def Xfer.heldSector (x : Xfer) (all : Bool) : Option Nat :=
  (x.held.map (fun p => p.1 / 32 * 32)).find? (fun a => all || (numsFrom a 32).all (fun i => (Map.find? x.held i).isSome))

/-- The run of collected bytes from an address on, within n. -/
def Xfer.heldRun (x : Xfer) (va : Nat) : Nat → List (Byte × Nat × Bool)
  | 0 => []
  | n + 1 => match Map.find? x.held va with
    | some b => b :: x.heldRun (va + 1) n
    | none => []

/-- The run is no longer collected. -/
def Xfer.letGo (x : Xfer) (va n : Nat) : Xfer := { x with held := x.held.filter (fun p => !(decide (va ≤ p.1) && decide (p.1 < va + n))) }

/-! ### The tile byte space (R322)

The bytes on their way to a tile are collected by their offset o in it: byte o mod rstride of row o div rstride. -/

/-- The destination is a remote handle.
DEDUCED, unsafe: assumption 36. -/
def Request.farTile (q : Request) : Bool := decide (2 ^ 32 ≤ q.word 2)

/-- The row stride of the destination tile. -/
def State.tileStride (s : State) (x : Xfer) : Nat :=
  if x.req.farTile then bitsOf (x.par 14) 19 0 else (s.tile (handleKey (x.req.word 2))).shape.rstride

/-- A tuple from t on falls in a row. -/
def Xfer.rowLater (x : Xfer) (rs : Nat) (row : Int) : Nat → Nat → Bool
  | 0, _ => false
  | n + 1, t => decide (x.dstOff t / (rs : Int) = row) || x.rowLater rs row n (t + 1)

/-- Bytes of one row reach the tile port, or leave for another module, for their tuple n.
DEDUCED, unsafe: assumption 36. -/
def State.tileRun (s : State) (cl : Nat) (x : Xfer) (row off n : Nat) (bs : List Byte) (fin : Bool) : State × Nat :=
  let h := x.req.word 2
  if x.req.farTile then (s.egressJoin cl x.req.ctx x.id n (s.tilewrPacket h row off bs fin), 0)
  else s.portWrite (some cl) x.req.ctx h row off bs fin false

/-- Of the collected bytes that are chosen, the earliest tuple's: their offset. -/
def Xfer.earliest (x : Xfer) (sel : Nat × Byte × Nat × Bool → Bool) : Option Nat :=
  ((x.held.filter sel).foldl (fun (b : Option (Nat × Nat)) p =>
    if b.all (fun q => decide (p.2.2.1 < q.1)) then some (p.2.2.1, p.1) else b) none).map (·.2)

/-- The chosen bytes are written in one event, those of the earliest tuple first, each time with the run about them in their row and
sector; the last run of a row that ends is its row-final write (R322). -/
def State.writeTile (s : State) (cl : Nat) (x : Xfer) (rs : Nat) (sel : Nat × Byte × Nat × Bool → Bool) (fin : Bool) : Nat → State × Xfer
  | 0 => (s, x)
  | n + 1 =>
    match x.earliest sel with
    | none => (s, x)
    | some o =>
      let lo := max (o / 32 * 32) (o / rs * rs)
      let a := (firstFrom (fun a => (numsFrom a (o - a)).all (fun i => (Map.find? x.held i).isSome)) lo (o - lo)).getD o
      let run := x.heldRun a (min (o / 32 * 32 + 32) ((o / rs + 1) * rs) - a)
      let tuple := run.foldl (fun n b => min n b.2.1) ((run.head?.map (·.2.1)).getD 0)
      let y := x.letGo a (max run.length 1)
      let last := fin && !y.held.any sel
      let r := s.tileRun cl x (a / rs) (a % rs) tuple (run.map (·.1)) last
      r.1.writeTile cl (if r.2 = 0 then y else y.err tuple r.2 0 0) rs sel fin n

/-! ### Sectors -/

/-- The first run of collected bytes of a sector is written. -/
def State.writeHeld (s : State) (cl : Nat) (x : Xfer) (sector : Nat) : State × CRes Unit × Xfer :=
  let va := (firstFrom (fun a => (Map.find? x.held a).isSome) sector 32).getD sector
  let run := x.heldRun va (sector + 32 - va)
  let tuple := run.foldl (fun n b => min n b.2.1) ((run.head?.map (·.2.1)).getD 0)
  let y := x.letGo va (max run.length 1)
  match s.chuckDest cl x va 1 (run.any (·.2.2)) with
  | (s1, .wait) => (s1, .wait, x)
  | (s1, .bad st fa r) => (s1, .ok (), y.err tuple st fa r)
  | (s1, .ok t) =>
    match s1.chuckWrite cl x t va tuple (run.map (·.1)) with
    | (s2, .ok _) => (s2, .ok (), y)
    | (s2, .bad st fa r) => (s2, .ok (), y.err tuple st fa r)
    | (s2, .wait) => (s2, .wait, x)

/-- The whole sectors are written or, at the end, all that is collected; false: a write has to wait. The bytes of a tile's row that come
earlier in nest order are written before a sector of it (R322). -/
def State.writeSectors (cl : Nat) (all : Bool) : Nat → State → Xfer → State × Xfer × Bool
  | 0, s, x => (s, x, true)
  | n + 1, s, x =>
    match x.heldSector all with
    | none => (s, x, true)
    | some a =>
      if x.req.toTile then
        let rs := s.tileStride x
        let upTo := (x.heldRun a 32).foldl (fun m b => max m b.2.1) 0
        let sel := fun (p : Nat × Byte × Nat × Bool) => all || ((p.1 / rs == a / rs || p.1 / rs == (a + 31) / rs) && decide (p.2.2.1 ≤ upTo))
        let r := s.writeTile cl x rs sel false (x.held.length + 1)
        State.writeSectors cl all n r.1 r.2
      else match s.writeHeld cl x a with
      | (s1, .ok _, y) => State.writeSectors cl all n s1 y
      | (s1, _, y) => (s1, y, false)

/-! ### COPY, FILL, GATHER (Table 19-3) -/

/-- One element moves. -/
def State.moveElem (s : State) (cl : Nat) (x : Xfer) (sa da : Nat) : State × CRes Xfer :=
  cThen (s.chuckLoad cl x sa x.req.es) (fun s v =>
    cThen (s.chuckDest cl x da x.req.es v.2) (fun s _ => (s, .ok (x.hold da v.2 v.1))))

/-- The source address of the tuple at hand: by the nest, by the index array, or always the same. -/
def State.sourceVa (s : State) (cl : Nat) (x : Xfer) : State × CRes Nat :=
  match x.req.op with
  | 7 => (s, .ok (x.req.va 1))
  | 3 | 4 =>
    let f := bitsOf (x.par 13) 63 59
    let n := elemSize f
    cThen (s.chuckLoad cl x (vaPlus (x.par 13 % 2 ^ 56) (((x.pos / x.cnt 0 * n : Nat) : Int))) n) (fun s v =>
      let i : Int := if f = 6 then (leNat v.1 : Int) else sextInt (8 * n) (leNat v.1)
      (s, .ok (vaPlus (x.req.va 1) (i * x.sstr 1 + ((x.pos % x.cnt 0 : Nat) : Int) * x.sstr 0))))
  | _ => (s, .ok (vaPlus (x.req.va 1) (x.srcOff x.pos)))

/-! ### COPYT, GATHERT (R322) -/

/-- What refuses an element at an offset of the tile now. -/
def State.tileBar (s : State) (cl : Nat) (x : Xfer) (row : Int) (off n : Nat) : Nat :=
  if x.req.farTile then if row < 0 ∨ 127 < row ∨ 2 ^ 15 < off + n then 2 else 0
  else s.portCode (some cl) x.req.ctx (x.req.word 2) (if row < 0 then 255 else row.toNat) off n

/-- The element of the tuple at hand goes to its byte of the tile; with the last tuple of a row, under rowfin, the row is written.
DEDUCED, unsafe: assumption 36. -/
def State.tilePut (s : State) (cl : Nat) (x : Xfer) (bs : List Byte) : State × CRes Xfer :=
  let rs := s.tileStride x
  let o := x.dstOff x.pos
  let row := o / (rs : Int)
  match s.tileBar cl x row (o % (rs : Int)).toNat bs.length with
  | 0 =>
    let y := x.hold o.toNat false bs
    if x.req.rowfin && !x.rowLater rs row (x.total - x.pos - 1) (x.pos + 1) then
      let r := s.writeTile cl y rs (fun p => p.1 / rs == row.toNat) true (y.held.length + 1)
      (r.1, .ok r.2)
    else (s, .ok y)
  | code => (s, .bad code 0 0)

/-- One element moves into a tile.
DEDUCED, unsafe: assumption 36. -/
def State.moveToTile (s : State) (cl : Nat) (x : Xfer) (sa : Nat) : State × CRes Xfer :=
  cThen (s.chuckLoad cl x sa x.req.es) (fun s v =>
    if v.2 && x.req.farTile then (s, .bad 7 0 0) else s.tilePut cl x v.1)

/-! ### PREF -/

/-- A source element's 256-byte block is translated; faults are ignored, and a fill that it starts is not awaited. A walk that no walker
can take up yet is (R172). -/
def State.prefElem (s : State) (cl : Nat) (x : Xfer) (sa : Nat) : State × CRes Unit :=
  let a := sa / 256 * 256
  cThen (s.chuckAlign sa x.req.es) (fun s _ =>
    let go := fun (exempt : Bool) => match s.engineXlate (.xfer cl x.id) cl x.req.ctx (s.requestVa x.req a) .read true exempt with
      | (s1, .miss) => (s1, CRes.wait)
      | (s1, _) => (s1, .ok ())
    match windowOf a with
    | .global => go false
    | .priv _ => if x.req.lathe.isSome then (s, .ok ()) else go true
    | _ => (s, .ok ()))

/-! ### BIN (R323) -/

/-- The bin of an update. -/
def Xfer.binAt (x : Xfer) (b : Nat) : Nat := vaPlus (x.req.va 2) ((b * (64 + 16 * bitsOf (x.par 15) 31 0) : Nat) : Int)

def farTgt (t : Tgt) : Bool :=
  match t with
  | .remote _ _ => true
  | _ => false

/-- The busy bit of a fill word is set by one read-modify-write at its home slice: the count it held, once that is done. In another module
it is an AMO, and one that finds the bit set is made again.
DEDUCED, unsafe: assumption 36. -/
def State.setBusy (s : State) (cl : Nat) (x : Xfer) (t : Tgt) (va : Nat) : State × CRes Unit × Xfer :=
  match t with
  | .remote rmod pa =>
    if x.asked then
      match s.chuckRead cl x t 8 with
      | (s1, .ok bs) =>
        let w := leNat bs
        let y := { x with asked := false, fetched := [] }
        if w.testBit 63 then (s1, .wait, y) else (s1, .ok (), { y with busy := true, fill := w % 2 ^ 32 })
      | (s1, .bad st fa r) => (s1, .bad st fa r, { x with asked := false })
      | (s1, .wait) => (s1, .wait, x)
    else
      (s.egress cl x.req.ctx { op := 3, dst := rmod, src := s.links.lmod, len := 7, flags := 3 * 2, addr := pa, pay := leBytes 8 (2 ^ 63) }
         (.xferRead cl x.id x.pos), .wait, { x with asked := true, fetched := [] })
  | _ =>
    match s.chuckRead cl x t 8 with
    | (s1, .ok bs) =>
      let w := leNat bs
      if w.testBit 63 then (s1, .wait, x)
      else match s1.chuckWrite cl x t va x.pos (leBytes 8 (w % 2 ^ 32 + 2 ^ 63)) with
        | (s2, .ok _) => (s2, .ok (), { x with busy := true, fill := w % 2 ^ 32 })
        | (s2, .bad st fa r) => (s2, .bad st fa r, x)
        | (s2, .wait) => (s2, .wait, x)
    | (s1, .bad st fa r) => (s1, .bad st fa r, x)
    | (s1, .wait) => (s1, .wait, x)

/-- The fill word is written, and the busy bit with it is given up. -/
def State.clearBusy (s : State) (cl : Nat) (x : Xfer) (t : Tgt) (va w : Nat) : State × CRes Unit × Xfer :=
  if s.xferWrites cl x.id then (s, .wait, x)
  else match s.chuckWrite cl x t va x.pos (leBytes 8 w) with
    | (s1, .ok _) => (s1, .ok (), { x with busy := false, posted := false })
    | (s1, r) => (s1, r, x)

/-- The append of a record to a bin whose busy bit is held: the record, then the fill word, as a release: after the record has been
performed. A bin that has no room, or a record that cannot be written, gives the busy bit up. -/
def State.appendHeld (s : State) (cl : Nat) (x : Xfer) (ft : Tgt) (bin : Nat) (rec_ : List Byte) (mk : Bool) : State × CRes Unit × Xfer :=
  let ends := fun (r : State × CRes Unit × Xfer) (st fa re : Nat) => match r with
    | (t, .ok _, y) => (t, CRes.bad st fa re, y)
    | r => r
  let close := fun (t : State) => t.clearBusy cl x ft bin x.fill
  if x.posted then s.clearBusy cl x ft bin (x.fill + 1)
  else if bitsOf (x.par 15) 31 0 ≤ x.fill then ends (close s) 20 0 0
  else
    let a := vaPlus bin ((64 + 16 * x.fill : Nat) : Int)
    let b := vaPlus a 8
    let puts := cThen (s.chuckDest cl x a 8 mk) (fun s t => cThen (s.chuckDest cl x b 8 mk) (fun s u =>
      cThen (s.chuckWrite cl x t a x.pos (rec_.take 8)) (fun s _ => s.chuckWrite cl x u b x.pos (rec_.drop 8))))
    match puts with
    | (s1, .ok _) => s1.clearBusy cl { x with posted := true } ft bin (x.fill + 1)
    | (s1, .bad st fa r) => ends (close s1) st fa r
    | (s1, .wait) => (s1, .wait, x)

/-- The update at hand is appended to its bin. A full bin stops the transfer whether it is busy or not (R323). -/
def State.append (s : State) (cl : Nat) (x : Xfer) (bin : Nat) (rec_ : List Byte) (mk : Bool) : State × CRes Unit × Xfer :=
  match s.chuckDest cl x bin 8 mk with
  | (s1, .bad st fa r) => (s1, .bad st fa r, x)
  | (s1, .wait) => (s1, .wait, x)
  | (s1, .ok ft) =>
    let go := fun (s : State) (x : Xfer) => match s.setBusy cl x ft bin with
      | (s2, .ok _, y) => s2.appendHeld cl y ft bin rec_ mk
      | r => r
    if x.busy then s1.appendHeld cl x ft bin rec_ mk
    else if x.asked then go s1 x
    else
      match s1.chuckRead cl x ft 8 with
      | (s2, .bad st fa r) => (s2, .bad st fa r, x)
      | (s2, .wait) => (s2, .wait, x)
      | (s2, .ok fill) => if bitsOf (x.par 15) 31 0 ≤ leNat fill % 2 ^ 32 then (s2, .bad 20 0 0, x) else go s2 x

/-- One update: it is read once, and its bin is known from then on. -/
def State.binStep (s : State) (cl : Nat) (x : Xfer) : State × CRes Unit × Xfer :=
  let a := vaPlus (x.req.va 1) (((x.pos : Nat) : Int) * x.sstr 0)
  match x.upd with
  | some (b, bs, marked) => s.append cl x (x.binAt b) bs marked
  | none =>
    match cThen (s.chuckAlign a x.req.es) (fun s _ => s.chuckSpan cl x a 16) with
    | (s1, .bad st fa r) => (s1, .bad st fa r, x)
    | (s1, .wait) => (s1, .wait, x)
    | (s1, .ok (bs, marked)) =>
      let b := leNat (bs.take 8) >>> bitsOf (x.par 14) 13 8
      if bitsOf (x.par 14) 7 0 < b then (s1, .bad 2 0 0, x)
      else s1.append cl { x with upd := some (b, bs, marked), fetched := [] } (x.binAt b) bs marked

/-! ### APPLY (R324) -/

/-- The new value of an array element. -/
def applySum (fmt old v : Nat) : Nat := if fmt = 7 then (old + v) % 2 ^ 64 else faddCode fp64 old v

/-- One read-modify-write of an array element (R51). -/
def State.chuckAdd (s : State) (cl : Nat) (x : Xfer) (t : Tgt) (va v : Nat) : State × CRes Unit :=
  let fmt := x.req.fmt 2
  match t with
  | .remote rmod pa =>
    (s.egress cl x.req.ctx { op := 3, dst := rmod, src := s.links.lmod, len := 7, flags := (if fmt = 7 then 1 else 5) * 2, addr := pa,
                             pay := leBytes 8 v } (.xfer cl x.id x.pos), .ok ())
  | _ =>
    let d := match t with
      | .hbm pa => s.drainOver 0 0 pa 8
      | .host pa => s.drainOver 1 0 pa 8
      | _ => (s, none)
    if d.2.isNone then
      cThen (d.1.chuckRead cl x t 8) (fun s old => s.chuckWrite cl x t va x.pos (leBytes 8 (applySum fmt (leNat old) v)))
    else (d.1, .wait)

/-- One record: the one before it has been performed. -/
def State.applyStep (s : State) (cl : Nat) (x : Xfer) : State × CRes Unit :=
  if s.xferWrites cl x.id then (s, .wait)
  else
    let a := vaPlus (x.req.va 1) ((64 + 16 * x.pos : Nat) : Int)
    cThen (s.chuckLoad cl x a 8) (fun s i =>
      cThen (s.chuckLoad cl x (vaPlus a 8) 8) (fun s v =>
        let e := vaPlus (x.req.va 2) ((8 * leNat i.1 : Nat) : Int)
        cThen (s.chuckDest cl x e 8 (i.2 || v.2)) (fun s t => s.chuckAdd cl x t e (leNat v.1))))

/-- The fill word of the bin. -/
def State.applyFill (s : State) (cl : Nat) (x : Xfer) : State × CRes Tgt :=
  let a := x.req.va 1
  if a % 64 ≠ 0 then (s, .bad 19 a 0) else s.chuckDest cl x a 8 false

/-- Sets the busy bit, waiting while it is set; the count of records is then known. -/
def State.applyOpen (s : State) (cl : Nat) (x : Xfer) : State × Xfer :=
  match s.applyFill cl x with
  | (s1, .wait) => (s1, x)
  | (s1, .bad st fa r) => (s1, { x.err 0 st fa r with stopAt := some 0 })
  | (s1, .ok t) =>
    match s1.setBusy cl x t (x.req.va 1) with
    | (s2, .ok _, y) => (s2.stepOver cl y.id, { y with total := y.fill, fetched := [] })
    | (s2, .bad st fa r, y) => (s2, { y.err 0 st fa r with stopAt := some 0 })
    | (s2, .wait, y) => (s2, y)

/-- Writes the fill word 0, when every record has been applied. -/
def State.applyClose (s : State) (cl : Nat) (x : Xfer) : State × Xfer :=
  match s.applyFill cl x with
  | (s1, .ok t) =>
    match s1.clearBusy cl x t (x.req.va 1) 0 with
    | (s2, .ok _, y) => (s2, { y with pos := max y.pos 1, fetched := [] })
    | (s2, _, y) => (s2, y)
  | (s1, .wait) => (s1, x)
  | (s1, .bad st fa r) => (s1, { x.err x.total st fa r with stopAt := some x.total })

/-! ### TREAD -/

/-- Every byte of a row can be written: its pieces in blocks of 256 bytes translate. -/
def State.rowReach (s : State) (cl : Nat) (x : Xfer) (va len : Nat) : Nat → State × CRes Unit
  | 0 => (s, .ok ())
  | n + 1 =>
    if len = 0 then (s, .ok ())
    else
      let k := min len (256 - va % 256)
      cThen (s.chuckDest cl x va 1 false) (fun s t =>
        if s.windowBar (t, false) k then (s, .bad 18 va 0) else s.rowReach cl x (vaPlus va (k : Int)) (len - k) n)

/-- One row of the tile is copied: its stored bytes, or zeros where it is invalid. -/
def State.treadStep (s : State) (cl : Nat) (x : Xfer) : State × CRes Xfer :=
  let t := s.tile (handleKey (x.req.word 1))
  let n := t.shape.rowLen
  let a := spAddr cl (t.shape.rowAt x.pos)
  let valid := t.valid.getLsbD x.pos
  let va := vaPlus (x.req.va 2) ((x.pos : Int) * x.dstr 0)
  if valid && s.spPoisoned a n then (s, .bad 10 0 0)
  else cThen (s.rowReach cl x va n (n + 1)) (fun s _ => (s, .ok (x.hold va false (if valid then s.spBytes a n else List.replicate n 0))))

/-! ### A transfer runs (Table 19-1) -/

/-- The tuple, update, record or row at hand. -/
def State.tupleStep (s : State) (cl : Nat) (x : Xfer) : State × CRes Unit × Xfer :=
  let plain := fun (r : State × CRes Unit) => (r.1, r.2, x)
  let holds := fun (r : State × CRes Xfer) => match r with
    | (t, .ok y) => (t, CRes.ok (), y)
    | (t, .bad st fa re) => (t, .bad st fa re, x)
    | (t, .wait) => (t, .wait, x)
  match x.req.op with
  | 2 | 4 => holds (cThen (s.sourceVa cl x) (fun s sa => s.moveToTile cl x sa))
  | 5 => s.binStep cl x
  | 6 => plain (s.applyStep cl x)
  | 9 => plain (s.prefElem cl x (vaPlus (x.req.va 1) (x.srcOff x.pos)))
  | 10 => holds (s.treadStep cl x)
  | _ => holds (cThen (s.sourceVa cl x) (fun s sa => s.moveElem cl x sa (vaPlus (x.req.va 2) (x.dstOff x.pos))))

/-- Tuples are taken in order until the transfer stops, waits or has no more. -/
def State.tuples (cl : Nat) : Nat → State → Xfer → State × Xfer
  | 0, s, x => (s, x)
  | n + 1, s, x =>
    match State.writeSectors cl false (x.held.length + 1) s x with
    | (s0, y, false) => (s0, y)
    | (s0, y, true) =>
      if y.stopAt.isSome ∨ y.total ≤ y.pos then (s0, y)
      else
        match s0.tupleStep cl y with
        | (s1, .ok _, z) => State.tuples cl n (s1.stepOver cl z.id) { z with pos := z.pos + 1, fetched := [], upd := none }
        | (s1, .bad st fa r, z) => State.tuples cl n (s1.stepOver cl z.id) { z.err z.pos st fa r with pos := z.pos + 1, fetched := [], upd := none }
        | (s1, .wait, z) =>
          let drop := z.busy == y.busy && !z.asked && !s1.xferAsks cl z.id
          (s1, if drop then { z with fetched := [] } else z)

/-- What has been collected is written when there are no more tuples. -/
def State.lastBytes (s : State) (cl : Nat) (x : Xfer) : State × Xfer :=
  if x.stopAt.isSome ∨ x.total ≤ x.pos then
    let r := State.writeSectors cl true (x.held.length + 1) s x
    (r.1, r.2.1)
  else (s, x)

/-- A transfer goes on as far as it can.
DESIGN CHOICE, unsafe: assumption 30. -/
def State.xferRun (s : State) (cl : Nat) (x : Xfer) : State × Xfer :=
  if x.req.op = 6 then
    let r := if x.busy || x.pos != 0 || x.stopAt.isSome then (s, x) else s.applyOpen cl x
    let q := State.tuples cl (r.2.total + 1) r.1 r.2
    if q.2.busy && q.2.stopAt.isNone && decide (q.2.total ≤ q.2.pos) then q.1.applyClose cl q.2 else q
  else
    let r := State.tuples cl (x.total - x.pos + 1) s x
    r.1.lastBytes cl r.2

/-- No further access issues. -/
def Xfer.over (x : Xfer) : Bool :=
  x.held.isEmpty && (x.stopAt.isSome || (decide (x.total ≤ x.pos) && x.rows.isEmpty && !x.busy && (x.req.op != 6 || x.pos != 0)))

end Sys2Proof.Machine
end

