-- ==== Sys2Proof/Machine/Chuck.lean ====
section
/-! DEFINITION. Chuck FIFOs and the instructions that use them, the acceptance of a request, sweeps, and completion (R98, R264 to R266,
R318 to R320, R325, R326). -/

namespace Sys2Proof.Machine

/-! ### FIFOs (R98) -/

/-- FIFO f of a cluster: 0 to 15 those of its cores, 16 to 19 those of its Lathes. -/
def State.fifo (s : State) (cl f : Nat) : Fifo := if f < 16 then (s.core (16 * cl + f)).fifo else (s.lathe (4 * cl + f - 16)).fifo

def State.setFifo (s : State) (cl f : Nat) (q : Fifo) : State :=
  if f < 16 then s.setCore (16 * cl + f) { s.core (16 * cl + f) with fifo := q }
  else s.setLathe (4 * cl + f - 16) { s.lathe (4 * cl + f - 16) with fifo := q }

/-- The FIFO that a request came from, in its cluster. -/
def Request.fifoNo (q : Request) : Nat :=
  match q.lathe with
  | some l => 16 + l % 4
  | none => q.core % 16

/-- A request enters a FIFO, under a fresh name. -/
def State.pushRequest (s : State) (cl f : Nat) (q : Request) : State :=
  let x := s.fifo cl f
  let r := { q with id := s.ctl.free }
  let p : Pushed := { id := r.id, xid := r.xid, ctx := r.ctx }
  s.tookFree.setFifo cl f { x with entries := x.entries ++ [r], pushed := (p :: x.pushed).take 64 }

/-- What `cstat` reports of a request changes. -/
def State.setPushed (s : State) (cl : Nat) (q : Request) (g : Pushed → Pushed) : State :=
  let x := s.fifo cl q.fifoNo
  s.setFifo cl q.fifoNo { x with pushed := x.pushed.map (fun p => if p.id = q.id then g p else p) }

/-- The request of the issuing slot. -/
def State.slotRequest (s : State) (w : List Word64) : Request :=
  let x := s.cur
  { w := w, ctx := x.ctx, hyp := x.hyp, tid := x.tid, core := s.coreNo, launch := x.launch, tcls := x.tcls,
    fresh := x.pbinvs.contains ((w.getD 3 0).toNat % 2 ^ 56) }

/-- Four registers from a on, as sources. -/
def quad (a : BitVec 5) (ta : BitVec 1) : List Src := [(a, ta), (a + 1, ta), (a + 2, ta), (a + 3, ta)]

/-- A request of the slot has entered its FIFO: it is the `cpush` that an earlier `pbinv` of its block was for (R266). -/
def Slot.pushed (x : Slot) (q : Request) : Slot := { x with pbinvs := x.pbinvs.filter (fun b => b != q.va 3) }

def execCpush (a : BitVec 5) (ta : BitVec 1) (s : State) : Out :=
  operands (.cpush a ta) (quad a ta) [] s (fun s => s.release true true 4 (fun s =>
    let cl := clusterOf s.coreNo
    let f := s.coreNo % 16
    let x := s.fifo cl f
    let q := s.slotRequest ((quad a ta).map (fun p => s.gr p.1))
    if x.entries.length < 16 then ((s.setCur (s.cur.pushed q)).pushRequest cl f q).skip
    else if (s.ctx s.cur.ctx).cstrict then s.trap (causeTrap 14)
    else (s.setFifo cl f { x with waiting := x.waiting ++ [(s.key, q)], stall := sat32 x.stall }).parkWait .push))

/-- An entry of a FIFO has freed: the pushes that have waited longest enter, and their slots go on (R98). -/
def State.admitPushes (s : State) (cl f : Nat) : Nat → State
  | 0 => s
  | n + 1 =>
    let x := s.fifo cl f
    match x.waiting with
    | [] => s
    | (k, q) :: rest =>
      if x.entries.length < 16 then
        let y := (s.slot k).pushed q
        let s1 := s.setSlot k { y with st := .active, wait := .none, pc := y.pc + 4 }
        State.admitPushes ((s1.setFifo cl f { x with waiting := rest }).pushRequest cl f q) cl f n
      else s

/-- The word that `cstat` reports. A request that a TEARDOWN has discarded shows as one of which there is no record.
DESIGN CHOICE, unsafe: assumption 78. -/
def Pushed.report (p : Pushed) : Nat :=
  (if p.discarded then 0 else if p.complete then 2 else 1) * 2 ^ 62 + b2n p.refusedWrite * 2 ^ 61 + p.status

def execCstat (d a : BitVec 5) (ta : BitVec 1) (s : State) : Out :=
  operands (.cstat d a ta) [(a, ta)] [d] s (fun s =>
    let w := (s.gr a).toNat
    let n := s.coreNo % 16
    let f := if 12 ≤ n ∧ w.testBit 16 then n + 4 else n
    match (s.fifo (clusterOf s.coreNo) f).pushed.find? (fun p => p.xid == w % 2 ^ 16) with
    | none => s.pend d { reg := d.toNat, v := 0, dep := s.cur.depOf [a.toNat] }
    | some p => (s.acquire p.complete 4).pend d { reg := d.toNat, v := BitVec.ofNat 64 p.report, dep := s.cur.depOf [a.toNat] })

def execPbinv (a : BitVec 5) (ta : BitVec 1) (s : State) : Out :=
  operands (.pbinv a ta) [(a, ta)] [] s (fun s =>
    let cl := clusterOf s.coreNo
    let c := s.cluster cl
    let blk := ptrVa (s.gr a) / 128 * 128
    let x := s.cur
    let s := s.setCur { x with pbinvs := blk :: x.pbinvs.filter (fun b => b != blk) }
    (s.setCluster cl { c with
      pb := c.pb.filter (fun e => !(e.addr == blk && e.ctx == s.cur.ctx))
      xfers := c.xfers.map (fun x => if x.req.va 3 = blk ∧ x.req.ctx = s.cur.ctx then { x with uncached := true } else x) }).skip)

/-! ### The parameter block (R319) -/

/-- The block named by w3: from the cache of the cluster, or read under the request's hypothesis. A block on its way when a `pbinv` removed
its entry is not put into the cache, and a request whose slot has issued `pbinv` for its block takes no copy whose read began before the
push (R266). -/
def State.chuckBlock (s : State) (cl : Nat) (x : Xfer) : State × CRes (List Word64) :=
  let a := x.req.va 3
  let c := s.cluster cl
  let same := fun (e : PbEntry) => e.addr == a && e.ctx == x.req.ctx && e.hyp == x.req.hyp
  let hit := fun (e : PbEntry) => same e && (!x.req.fresh || decide (x.req.id < e.stamp))
  if a % 128 ≠ 0 then (s, .bad 18 a 0)
  else
    match c.pb.find? hit with
    | some e => (s.setCluster cl { c with pb := e :: c.pb.filter (fun e => !hit e) }, .ok e.words)
    | none =>
      if windowOf a = .global then
        cThen (s.chuckXlate cl x a .read) (fun s t =>
          match s.chuckRead cl x t.1 128 with
          | (s1, .ok bs) =>
            let ws := (unpackElems 64 16 (leNat bs)).map (BitVec.ofNat 64)
            let d := s1.cluster cl
            let e : PbEntry := { addr := a, ctx := x.req.ctx, hyp := x.req.hyp, words := ws, stamp := x.id }
            (if x.uncached then s1 else s1.setCluster cl { d with pb := e :: (d.pb.filter (fun e => !same e)).take 63 }, .ok ws)
          | (s1, .bad _ _ r) => (s1, .bad 18 a r)
          | (s1, .wait) => (s1, .wait))
      else (s, .bad 18 a 1)

/-! ### The checks (R320) -/

/-- Step 1: the request words alone.
DESIGN CHOICE, unsafe: assumption 30. -/
def Request.wordsBad (q : Request) : Bool :=
  q.op == 0 || decide (10 < q.op) || bitsOf (q.word 0) 55 51 != 0 || bitsOf (q.word 0) 31 0 != 0
  || (q.rowfin && !([2, 4, 8].contains q.op)) || (q.dwr && q.quiet) || bitsOf (q.word 3) 63 56 != 0

/-- The dimensions that an operation uses, as Table 19-3 and R323 name them: the counts of the others are 1 (Table 19-2).
DEDUCED, unsafe: assumption 47. -/
def opDims (op : Nat) : Nat :=
  match op with
  | 3 | 4 => 2
  | 5 => 1
  | 6 | 8 | 10 => 0
  | _ => 6

/-- The opx words break Table 19-3. -/
def Xfer.opxBad (x : Xfer) : Bool :=
  let w13 := x.par 13
  let w14 := x.par 14
  let w15 := x.par 15
  let stride := if x.req.farTile then bitsOf w14 63 20 != 0 || w14 == 0 || w14 % 16 != 0 else w14 != 0
  let index := bitsOf w13 63 59 != 5 && bitsOf w13 63 59 != 6 && bitsOf w13 63 59 != 7
  match x.req.op with
  | 2 => w13 != 0 || stride || w15 != 0
  | 3 => index || w14 != 0 || w15 != 0
  | 4 => index || stride || w15 != 0
  | 5 => w13 != 0 || (bitsOf w14 63 59 != 7 && bitsOf w14 63 59 != 8) || bitsOf w14 58 14 != 0 || w15 == 0 || decide (2 ^ 24 ≤ w15)
  | 8 => bitsOf w13 63 56 != 0 || w14 == 0 || decide (2 ^ 24 < w14) || decide (2 ^ 32 ≤ w15)
  | _ => w13 != 0 || w14 != 0 || w15 != 0

/-- Step 3: the block's own fields.
DESIGN CHOICE, unsafe: assumption 30. DEDUCED, unsafe: assumption 47. -/
def Xfer.blockBad (x : Xfer) : Bool :=
  let w12 := x.par 12
  let hnd := if x.req.dwr then bitsOf w12 55 37 != 0 || bitsOf w12 31 28 != 0
    else w12 % 4 != 0 || (bitsOf w12 55 0 == 0 && !x.req.quiet)
  (numsFrom 0 6).any (fun i => bitsOf (x.par (2 * i + 1)) 23 0 != 0 || x.cnt i == 0 || (decide (opDims x.req.op ≤ i) && x.cnt i != 1))
  || bitsOf w12 63 56 != 0 || hnd || decide (2 ^ 32 < x.nest) || x.opxBad || (x.req.op == 9 && x.req.word 2 != 0)

/-- Step 4: a fat pointer that breaks R27, or a conversion.
DESIGN CHOICE, unsafe: assumption 30. -/
def Xfer.formatBad (x : Xfer) : Bool :=
  let bad := fun (i : Nat) => Machine.formatBad (BitVec.ofNat 64 (x.req.word i)) false
  let differs := x.req.fmt 2 != 0 && x.req.fmt 2 != x.req.fmt 1
  match x.req.op with
  | 2 | 8 | 9 => bad 1
  | 3 => bad 1 || bad 2 || Machine.formatBad (BitVec.ofNat 64 (x.par 13)) false || differs
  | 4 => bad 1 || Machine.formatBad (BitVec.ofNat 64 (x.par 13)) false
  | 6 => bad 1 || bad 2 || (x.req.fmt 2 != 7 && x.req.fmt 2 != 8)
  | 10 => bad 2
  | _ => bad 1 || bad 2 || differs

/-- Step 5: the handles. -/
def State.handleStatus (s : State) (cl : Nat) (x : Xfer) : Option Nat :=
  let check := fun (i : Nat) (ok : TileSt → Bool) => match s.tileFor cl x.req.ctx (x.req.word i) with
    | none => some 1
    | some t => if ok (s.tile t).st then none else some 21
  match x.req.op with
  | 2 | 4 => if x.req.farTile then (if s.remoteHandle (x.req.word 2) then none else some 1) else check 2 (fun t => t == .open_)
  | 8 => if x.req.farTile then none else check 2 (fun t => t == .open_)
  | 10 => check 1 (fun t => t == .held || t == .queued || t == .consumed)
  | _ => none

/-- Steps 3 to 5: the status of a refusal. -/
def State.blockStatus (s : State) (cl : Nat) (x : Xfer) : Option Nat :=
  if x.blockBad then some 16
  else if x.formatBad then some 17
  else s.handleStatus cl x

/-! ### Debits (Table 19-3, R111) -/

def State.debitChuck (s : State) (cl ctx bytes : Nat) : State :=
  if (s.ctx ctx).budgets.chuck = 0xFFFF then s
  else let b := s.balances cl ctx
       s.setBalances cl ctx { b with chuck := b.chuck - (((bytes + 63) / 64 : Nat) : Int) }

def State.debitCarillon (s : State) (cl ctx bytes : Nat) : State :=
  if (s.ctx ctx).budgets.car = 0xFFFF then s
  else let b := s.balances cl ctx
       s.setBalances cl ctx { b with car := b.car - (((bytes + 63) / 64 : Nat) : Int) }

/-- Tuples, updates or rows of a transfer; the records of an APPLY are known later. -/
def State.xferTotal (s : State) (x : Xfer) : Nat :=
  match x.req.op with
  | 5 => x.cnt 0
  | 6 => 0
  | 10 => (s.tile (handleKey (x.req.word 1))).shape.rows
  | _ => x.nest

/-- The bytes that acceptance debits. -/
def State.xferBytes (s : State) (x : Xfer) : Nat :=
  match x.req.op with
  | 5 => 16 * x.cnt 0
  | 6 => 64
  | 10 => let h := (s.tile (handleKey (x.req.word 1))).shape
          h.rows * h.rowLen
  | _ => x.nest * x.req.es

/-! ### Sweeps (R325) -/

/-- Tokens to a stripe. -/
def Request.tokens (q : Request) : Nat := if q.fmt 1 = 10 ∨ q.fmt 1 = 11 then 1 else 2
/-- The format of keys and values. -/
def Request.kvFmt (q : Request) : Nat := if q.tokens = 1 then 10 else 12
/-- The row of token 0 in its stripe. -/
def Xfer.row0 (x : Xfer) : Nat := x.par 13 % 256 / (128 / x.req.tokens)
def Xfer.ntok (x : Xfer) : Nat := x.par 14
/-- The stripe of token 0: those before it hold no token of the sweep. -/
def Xfer.stripe0 (x : Xfer) : Nat := x.row0 / x.req.tokens

/-- The combination of formats or the result tile does not admit a sweep. -/
def State.sweepBad (s : State) (x : Xfer) : Bool :=
  let t := s.tile (handleKey (x.req.word 2))
  !([10, 11, 12, 13].contains (x.req.fmt 1)) || x.req.farTile || t.shape.fmt != 9 || decide (t.shape.cols < 193) || t.target != 0

/-- The query: n elements of es bytes from va on. -/
def State.queryBytes (s : State) (cl : Nat) (x : Xfer) (va es : Nat) : Nat → State × CRes (List Byte)
  | 0 => (s, .ok [])
  | n + 1 => cThen (s.chuckLoad cl x va es) (fun s v =>
      cThen (s.queryBytes cl x (vaPlus va (es : Int)) es n) (fun s r => (s, .ok (v.1 ++ r))))

/-- The physical addresses of n stripes from va on; each must lie in module HBM. -/
def State.stripesOf (s : State) (cl : Nat) (x : Xfer) (va : Nat) : Nat → State × CRes (List Nat)
  | 0 => (s, .ok [])
  | n + 1 => cThen (s.chuckXlate cl x va .read) (fun s t =>
      match t.1 with
      | .hbm pa => cThen (s.stripesOf cl x (vaPlus va 256) n) (fun s r => (s, .ok (pa :: r)))
      | _ => (s, .bad 18 va 0))

/-- The participating slices, in ascending order of the lowest token each holds. -/
def sweepSlices (stripes : List Nat) : List Nat :=
  stripes.foldl (fun l pa => if l.contains (homeSlice pa) then l else l ++ [homeSlice pa]) []

/-- A transfer of a cluster, by its name. -/
def State.xfer (s : State) (cl id : Nat) : Option Xfer := (s.cluster cl).xfers.find? (fun x => x.id == id)

/-- Stores a transfer in its cluster. -/
def State.putXfer (s : State) (cl : Nat) (x : Xfer) : State :=
  let c := s.cluster cl
  let l := if c.xfers.any (fun y => y.id == x.id) then c.xfers.map (fun y => if y.id = x.id then x else y) else c.xfers ++ [x]
  s.setCluster cl { c with xfers := l }

/-- A transfer reaches DONE. -/
def State.dropXfer (s : State) (cl : Nat) (x : Xfer) : State :=
  let c := s.cluster cl
  State.reapHyps (State.stepOver (s.setCluster cl { c with xfers := c.xfers.filter (fun y => y.id != x.id) }) cl x.id) x.req.ctx

/-- A transfer that acceptance has refused. -/
def Xfer.refuse (x : Xfer) (st faddr reason : Nat) : Xfer :=
  { x.err 0 st faddr reason with total := 0, pos := 1, stopAt := none, fetched := [] }

/-! ### Acceptance (R318, R319, R320) -/

/-- What `cstat` reports when a transfer ends with no direct write under way. -/
def State.endsWith (s : State) (cl : Nat) (q : Request) (status : Nat) (refused : Bool) : State :=
  s.setPushed cl q (fun p => { p with complete := true, status := status, refusedWrite := refused })

/-- A context whose slots, transfers and Lathes go on (Table 4-1). -/
def State.ctxRuns (s : State) (ctx : Nat) : Bool := (s.ctx ctx).st == .running || (s.ctx ctx).st == .checkpointed

/-- The balance of the class that a request is debited to is above zero (R112). -/
def State.classOpen (s : State) (cl : Nat) (q : Request) : Bool :=
  let b := (s.ctx q.ctx).budgets
  let v := s.balances cl q.ctx
  if q.op = 8 then tempoOpen b.car v.car else tempoOpen b.chuck v.chuck

/-- A completion holds the Chuck's completion stage (R97). -/
def State.stageHeld (s : State) (cl : Nat) : Bool := (s.cluster cl).xfers.any (fun x => x.sent.isSome)

/-- The request at the head of its FIFO leaves it: it is accepted, and those that wait for its entry move up. -/
def State.leaveFifo (s : State) (cl : Nat) (q : Request) : State :=
  let f := q.fifoNo
  let x := s.fifo cl f
  let s1 := s.setFifo cl f { x with entries := x.entries.filter (fun r => r.id != q.id) }
  State.admitPushes (s1.lapse q.ctx) cl f 16

/-- A request leaves its FIFO, accepted or refused: the transfer under a fresh name. -/
def State.accepts (s : State) (cl : Nat) (x : Xfer) : State × Xfer :=
  let s1 := ((s.leaveFifo cl x.req).dropXfer cl x).tookFree
  (s1, { id := s1.ctl.free, req := x.req, blk := x.blk, accepted := true })

/-- A request whose checks have passed or failed before it has made an access is refused with a status. -/
def State.refuses (s : State) (cl : Nat) (x : Xfer) (st faddr reason : Nat) : State :=
  let r := s.accepts cl x
  r.1.putXfer cl (r.2.refuse st faddr reason)

/-- The further checks of a sweep; then it is accepted and debited, and its rows are to be written. While a check waits, the SWEEP stays
at the head of its FIFO (R112, R318). -/
def State.sweepBegin (s : State) (cl : Nat) (x : Xfer) : State :=
  let q := x.req
  if s.sweepBad x then s.refuses cl x 16 0 0
  else
    match s.queryBytes cl x (q.va 1) q.es 64 with
    | (s1, .wait) => s1.putXfer cl x
    | (s1, .bad st fa r) => s1.refuses cl x st fa r
    | (s1, .ok query) =>
      match s1.stripesOf cl x (vaPlus (x.par 13 % 2 ^ 56 / 256 * 256) ((256 * x.stripe0 : Nat) : Int))
          ((x.row0 + x.ntok - 1) / q.tokens + 1 - x.stripe0) with
      | (s2, .wait) => s2.putXfer cl x
      | (s2, .bad st fa r) => s2.refuses cl x st fa r
      | (s2, .ok stripes) =>
        let p := (sweepSlices stripes).length
        let k := handleKey (q.word 2)
        if (s2.tile k).shape.rows < p then s2.refuses cl x 16 0 0
        else
          let r := s2.accepts cl x
          let s3 := (r.1.setTile k { r.1.tile k with target := p }).debitCarillon cl q.ctx (x.ntok * (256 / q.tokens))
          s3.putXfer cl { r.2 with query := query, stripes := stripes, rows := numsFrom 0 p, total := p, pos := p }

/-- The checks of steps 3 to 6 of R320, with the block at hand; a request that passes them is accepted and debited.
DESIGN CHOICE, unsafe: assumption 30. -/
def State.xferChecks (s : State) (cl : Nat) (x : Xfer) : State :=
  match s.blockStatus cl x with
  | some st => s.refuses cl x st 0 0
  | none =>
    if x.req.op = 8 then s.sweepBegin cl x
    else
      let a := s.accepts cl x
      let r := (a.1.debitChuck cl x.req.ctx (a.1.xferBytes x)).xferRun cl { a.2 with total := a.1.xferTotal x }
      r.1.putXfer cl r.2

/-- The read of the block of a request at the head of its FIFO; with it the request is accepted, if its context still runs and its class
is open. A block that is still on its way is awaited, and the request stays in its FIFO (R98, R112, R318). -/
def State.xferBegin (s : State) (cl : Nat) (x : Xfer) : State :=
  if !s.ctxRuns x.req.ctx || !s.classOpen cl x.req || s.stageHeld cl then s.putXfer cl x
  else if !x.blk.isEmpty then s.xferChecks cl x
  else
    match s.chuckBlock cl x with
    | (s1, .wait) => s1.putXfer cl x
    | (s1, .bad st _ _) => (((s1.leaveFifo cl x.req).endsWith cl x.req st false)).dropXfer cl x
    | (s1, .ok ws) => s1.xferChecks cl { x with blk := ws, fetched := [] }

/-- The head of a FIFO may be accepted (R98, R112), and its block is not already on its way.
DESIGN CHOICE, unsafe: assumption 6. -/
def State.headReady (s : State) (cl f : Nat) : Bool :=
  match (s.fifo cl f).entries.head? with
  | none => false
  | some q => s.ctxRuns q.ctx && s.classOpen cl q && !(s.cluster cl).xfers.any (fun x => !x.accepted && x.req.id == q.id)

/-- The Chuck takes the next head in its round, whose turn is then over (R98); it takes none while a completion waits for room (R97).
DESIGN CHOICE, unsafe: assumption 30. -/
def State.chuckAccept (s : State) (cl : Nat) : State :=
  let c := s.cluster cl
  if s.stageHeld cl then s
  else
    match firstFrom (fun i => s.headReady cl ((c.rr + 1 + i) % 20)) 0 20 with
    | none => s
    | some i =>
      let f := (c.rr + 1 + i) % 20
      match (s.fifo cl f).entries with
      | [] => s
      | q :: _ =>
        let s1 := s.setCluster cl { c with rr := f }
        if q.wordsBad then (((s1.leaveFifo cl q).endsWith cl q 16 false)).reapHyps q.ctx
        else State.xferBegin s1.tookFree cl { id := s1.tookFree.ctl.free, req := q }

def execChuckAccept (s : State) : Out := .next (s.chuckAccept s.ctl.at_.cluster)

/-! ### Clappers (R325, R40) -/

/-- n elements of a format from a byte list. -/
def elemsOf (es : Nat) (bs : List Byte) (n : Nat) : List Nat := unpackElems (8 * es) n (leNat bs)

/-- The key and value elements of the tokens of a slice. -/
def State.sweepTokens (s : State) (x : Xfer) (home : Nat) : List (List Nat × List Nat) :=
  let t := x.req.tokens
  let es := elemSize x.req.kvFmt
  (numsFrom 0 x.ntok).filterMap (fun o =>
    let u := x.row0 + o
    let pa := x.stripes.getD (u / t - x.stripe0) 0
    if homeSlice pa = home then
      let at_ := fun (base : Nat) => elemsOf es (s.visBytes x.req.ctx x.req.hyp (pa + base + u % t * (128 / t)) (64 * es)) 64
      some (at_ 0, at_ 128)
    else none)

/-- A group of at most 64 tokens: scores, the softmax step, the weighted values. -/
def sweepGroup (x : Xfer) (query : List Nat) (r : RowState) (toks : List (List Nat × List Nat)) : RowState :=
  let g := if x.req.tokens = 1 then 16 else 32
  let kv := x.req.kvFmt
  let score := fun (k : List Nat) =>
    addGroups fp32 0 (pieces g 8 ((query.zip k).map (fun p => (operandFV (x.req.fmt 1) p.1).mul (operandFV kv p.2)))) true 0
  let pad := 64 - toks.length
  let st := softmaxStep r (toks.map (fun t => score t.1) ++ List.replicate pad 0)
    (toks.map (fun _ => true) ++ List.replicate pad false) (x.par 15)
  let column := fun (n : Nat) => toks.map (fun t => t.2.getD n 0) ++ List.replicate pad 0
  { st.1 with o := (st.1.o.zip (numsFrom 0 64)).map (fun p =>
      addGroups fp32 0 (pieces 16 4 ((st.2.zip (column p.2)).map (fun q => (operandFV 10 q.1).mul (operandFV kv q.2)))) false p.1) }

/-- Element j of a row of partial state. -/
def partialElem (r : RowState) (j : Nat) : Nat :=
  if j < 64 then r.o.getD j 0 else if j = 64 then r.m else if j = 128 then r.l else if j = 192 then b2n r.nan else 0

/-- The bytes of a tile row with 32-bit elements written over it. -/
def State.partialRow (s : State) (t : Nat) (row : Nat) (r : RowState) : List Byte :=
  let h := (s.tile t).shape
  let old := s.spBytes (spAddr (t / 1024) (h.rowAt row)) h.rowLen
  let step := 4 * h.estr
  (old.zip (numsFrom 0 old.length)).map (fun p =>
    if p.2 % step < 4 ∧ p.2 / step < h.cols then BitVec.ofNat 8 (partialElem r (p.2 / step) / 256 ^ (p.2 % step)) else p.1)

/-- The byte ranges that a clapper reads: the key row and the value row of each token of its slice. -/
def sweepRanges (x : Xfer) (home : Nat) : List Nat :=
  let t := x.req.tokens
  (numsFrom 0 x.ntok).flatMap (fun o =>
    let u := x.row0 + o
    let pa := x.stripes.getD (u / t - x.stripe0) 0 + u % t * (128 / t)
    if homeSlice pa = home then [pa, pa + 128] else [])

/-- A byte that a clapper reads is lost (R336). -/
def State.sweepPoisoned (s : State) (x : Xfer) (home : Nat) : Bool :=
  (sweepRanges x home).any (fun a => s.poisoned a (128 / x.req.tokens))

/-- A clapper's reads search the log while the eviction balance is not above zero: they wait (R160). -/
def State.sweepWaits (s : State) (cl : Nat) (x : Xfer) (home : Nat) : Bool :=
  (sweepRanges x home).any (fun a => s.lookupWaits cl x.req.ctx x.req.hyp a (128 / x.req.tokens))

/-- A clapper's reads have been made (R160). -/
def State.sweepLooked (s : State) (cl : Nat) (x : Xfer) (home : Nat) : State :=
  (sweepRanges x home).foldl (fun t a => t.lookedUp cl x.req.ctx x.req.hyp a (128 / x.req.tokens)) s

/-- The clapper of slice k writes its row of the result tile. What it looks up in the log for all its tokens is one operation of the eviction
class (R112, R160).
DESIGN CHOICE, unsafe: assumption 92. -/
def State.clapperRow (s : State) (cl id k : Nat) : State :=
  match s.xfer cl id with
  | none => s
  | some x =>
    if x.rows.contains k then
      let home := (sweepSlices x.stripes).getD k 0
      let y := { x with rows := x.rows.erase k }
      if s.sweepPoisoned x home then s.putXfer cl (y.err k 10 0 0)
      else if s.sweepWaits cl x home then s
      else
        let query := elemsOf x.req.es x.query 64
        let groups := pieces 64 (x.ntok + 1) (s.sweepTokens x home)
        let r := groups.foldl (sweepGroup x query) {}
        let h := x.req.word 2
        match (s.sweepLooked cl x home).portWrite (some cl) x.req.ctx h k 0 (s.partialRow (handleKey h) k r) true false with
        | (s1, 0) => s1.putXfer cl y
        | (s1, code) => s1.putXfer cl (y.err k code 0 0)
    else s

def execClapperRow (s : State) : Out := .next (s.clapperRow s.ctl.at_.cluster s.ctl.at_.n s.ctl.at_.idx)

/-! ### Completion (R326) -/

/-- Word g0 of the payload (Table 19-5).
DEDUCED, unsafe: assumption 36. -/
def Xfer.result (x : Xfer) : Nat := x.req.op * 2 ^ 56 + x.req.xid * 2 ^ 32 + x.status

/-- The payload. -/
def Xfer.payload (x : Xfer) : List Word64 :=
  [BitVec.ofNat 64 x.result, BitVec.ofNat 64 (x.stopAt.getD x.total), x.faddr, BitVec.ofNat 64 x.reason,
   BitVec.ofNat 64 (x.req.word 2), 0, 0, 0]

/-- The core that receives the completion message. -/
def Request.target (q : Request) (cl : Nat) : Nat :=
  match q.lathe with
  | some l => 16 * cl + 12 + l % 4
  | none => q.core

/-- Every access has been performed: the transfer completes.
DESIGN CHOICE, unsafe: assumption 30. -/
def State.complete (s : State) (cl : Nat) (x : Xfer) : State :=
  let q := x.req
  if q.quiet then (s.endsWith cl q x.status false).dropXfer cl x
  else if q.dwr then
    let w := x.par 12
    let core := bitsOf w 27 16
    let s1 := s.dropXfer cl x
    if s1.fenced (clusterOf core) then s1.endsWith cl q x.status true
    else
      let c := s1.core core
      let dw : DirectWrite := { tid := w % 2 ^ 16, ctx := q.ctx, reg := bitsOf w 36 32, v := BitVec.ofNat 64 x.result,
                                from_ := .chuck cl q.id x.id }
      s1.setCore core { c with directWrites := c.directWrites ++ [dw] }
  else
    let dst := q.target cl
    let m : Msg := { kind := .completion, pc := x.par 12 % 2 ^ 56, ctx := q.ctx, hyp := q.hyp, tcls := q.tcls,
                     g := x.payload.map fullReg, launch := q.launch, src := .chuck cl }
    if s.noRoom dst q.ctx then (s.post dst m).putXfer cl { x with sent := some s.ctl.free }
    else ((s.post dst { m with room := true }).endsWith cl q x.status false).dropXfer cl x

/-- A transfer goes on, and completes when its last access has been performed, unless another completion holds the stage (R97). -/
def State.transferComplete (s : State) (cl id : Nat) : State :=
  match s.xfer cl id with
  | none => s
  | some x =>
    if x.sent.isSome then s
    else if !x.accepted then s.xferBegin cl x
    else
      let r := if x.over then (s, x) else s.xferRun cl x
      if r.2.over && !r.1.xferWrites cl x.id && !r.1.xferAsks cl x.id && !s.stageHeld cl then r.1.complete cl r.2 else r.1.putXfer cl r.2

def execTransferComplete (s : State) : Out := .next (s.transferComplete s.ctl.at_.cluster s.ctl.at_.n)

/-- A completion message that waited has been accepted by its core: its transfer is DONE (R97). -/
def State.xferDelivered (s : State) (stamp : Nat) : State :=
  (s.clusters.map (·.1)).foldl (fun t cl =>
    match (t.cluster cl).xfers.find? (fun x => x.sent == some stamp) with
    | none => t
    | some x => (t.endsWith cl x.req x.status false).dropXfer cl x) s

end Sys2Proof.Machine
end

