-- ==== Sys2Proof/Machine/Ready.lean ====
section
/-! DEFINITION. The slots that may issue in a cycle, the one a core picks, and the word that it fetches for it (R108, R109, R241, R256). -/

namespace Sys2Proof.Machine

/-! ### The search for a word (R160) -/

/-- The address in module HBM of the slot's next word. -/
def State.fetchPa (s : State) (k : Nat) : Option Nat :=
  let x := s.slot k
  match windowOf x.pc.toNat, s.look (clusterOf (k / 16)) x.ctx x.pc.toNat .fetch (!x.hnd) false with
  | .global, .ok e pa => (match tgtOf e pa with
    | .hbm a => some a
    | _ => none)
  | _, _ => none

/-- The fetch has log records to read, and the eviction balance is used up: the slot waits for it (R112, R160). -/
def State.fetchHeld (s : State) (k : Nat) : Bool :=
  (s.slot k).hyp != 0 && (s.fetchPa k).any (fun a => s.lookupWaits (clusterOf (k / 16)) (s.slot k).ctx (s.slot k).hyp a 4)

/-- The search of the versions for the slot's next word (R160). -/
def State.fetchLooked (s : State) (k : Nat) : State :=
  match (if (s.slot k).hyp = 0 then none else s.fetchPa k) with
  | some a => s.lookedUp (clusterOf (k / 16)) (s.slot k).ctx (s.slot k).hyp a 4
  | none => s

/-! ### Which slot issues (R108, R109, R256) -/

/-- A `yield` is over (R256): 16 cycles have passed, or every slot that was ACTIVE has issued, parked or left.
DEDUCED, unsafe: assumption 53. -/
def State.yielded (s : State) (x : Slot) : Bool :=
  decide (x.yieldUntil ≤ s.cycle) || x.yieldFor.all (fun k => (s.slot k).st != .active)

/-- The slot is ready (R108, R112).
DESIGN CHOICE, unsafe: assumption 18. -/
def State.slotReady (s : State) (k : Nat) : Bool :=
  let x := s.slot k
  x.st == .active && !x.leaving && s.ctxRuns x.ctx
  && tempoOpen (s.ctx x.ctx).budgets.issue (s.balances (clusterOf (k / 16)) x.ctx).issue
  && ((Map.find? (s.core (k / 16)).slotIssue (k % 16)).map (fun t => decide (t + 4 ≤ s.cycle))).getD true && s.yielded x
  && !s.fetchHeld k

/-- The slot of a core that issues: the first ready foreground slot in round-robin, else the first ready background slot.
DESIGN CHOICE, unsafe: assumption 6. -/
def State.pickReady (s : State) (core : Nat) : Option Nat :=
  let ready := ((numsFrom 1 16).map (fun i => 16 * core + ((s.core core).rr + i) % 16)).filter s.slotReady
  match ready.find? (fun k => !(s.slot k).tcls) with
  | some k => some k
  | none => ready.head?

/-- The core has not issued in this cycle. -/
def State.coreFree (s : State) (core : Nat) : Bool := ((s.core core).lastIssue.map (fun t => decide (t < s.cycle))).getD true

/-! ### Fetch (R200, R241, R335) -/

/-- What a fetch of the slot's next instruction comes to. -/
inductive Fetch where
  | word (w : Word32)
  | fault (reason status : Nat)
  | walk                        -- no TLB holds the translation
  | ask (rmod pa : Nat)         -- the word is on another module
  deriving DecidableEq, Repr

/-- R241: the instruction word at the slot's pc.
DEDUCED, unsafe: assumption 51. -/
def State.fetchWord (s : State) (k : Nat) : Fetch :=
  let x := s.slot k
  match windowOf x.pc.toNat with
  | .global =>
    match s.look (clusterOf (k / 16)) x.ctx x.pc.toNat .fetch (!x.hnd) false with
    | .fault r => .fault r 0
    | .ok e pa =>
      match tgtOf e pa with
      | .sp _ => .fault 1 0
      | .hbm a => if s.poisoned a 4 then .fault 6 0 else .word (BitVec.ofNat 32 (leNat (s.visBytes x.ctx x.hyp a 4)))
      | .host a => if s.hostFails a 4 then .fault 5 0 else .word (BitVec.ofNat 32 (leNat (Memory.readBytes s.host a 4)))
      | .remote rmod a =>
        match x.fetched.find? (fun f => f.rmod == rmod && f.pa == a) with
        | some f => if f.status ≠ 0 then .fault 5 f.status else .word (BitVec.ofNat 32 (leNat (f.bytes.take 4)))
        | none => .ask rmod a
    | _ => .walk
  | _ => .fault 1 0

/-- The instruction that slot k issues next, where its word is at hand. -/
def State.nextInstr (s : State) (k : Nat) : Option Instr :=
  match s.fetchWord k with
  | .word w => (decodeSpindle w).toOption
  | _ => none

/-- The slot that a core is to issue from in this cycle, with its instruction. -/
def State.issuing (s : State) (core : Nat) : Option (Nat × Option Instr) :=
  if s.coreFree core then (s.pickReady core).map (fun k => (k, s.nextInstr k)) else none

end Sys2Proof.Machine
end

