-- ==== Sys2Proof/Machine/Admission.lean ====
section
/-! DEFINITION. Messages that arrive at a core and are admitted, slot records, spilled threads, task records and stealing (R84, R96, R97,
R103 to R107, R118, R121, R337, R338). -/

namespace Sys2Proof.Machine

/-! ### Waiting messages (R96, R97) -/

/-- The code of a message's kind. -/
def MsgKind.code : MsgKind → Nat
  | .send => 0 | .migrate => 1 | .completion => 2 | .restore => 3

/-- The kind that a code names; a reserved one leaves the message its kind.
DESIGN CHOICE, unsafe: assumption 61. -/
def MsgKind.ofCode (k : MsgKind) (n : Nat) : MsgKind :=
  match n with
  | 0 => .send
  | 1 => .migrate
  | 2 => .completion
  | 3 => .restore
  | _ => k

/-- A ring entry (Table 6-4). A restore carries no payload, and its fe bits are 0.
DESIGN CHOICE, unsafe: assumption 61. -/
def Msg.ringEntry (m : Msg) : List Byte :=
  let carries := m.kind == .migrate || m.kind == .restore
  let reg := fun (i : Nat) => m.g.getD i {}
  let fe := if m.kind == .restore then 0 else if carries then (numsFrom 0 8).foldl (fun n i => n + b2n ((reg i).st == .full) * 2 ^ i) 0 else 255
  let w1 := m.kind.code * 2 ^ 56 + m.hyp % 256 * 2 ^ 48 + m.ctx % 64 * 2 ^ 42 + b2n m.tcls * 2 ^ 41
    + b2n (m.mig && m.kind == .migrate) * 2 ^ 40 + fe * 2 ^ 32 + (if carries then m.tid % 2 ^ 16 else 0)
  leBytes 8 (m.pc % 2 ^ 56) ++ leBytes 8 w1
    ++ (numsFrom 0 8).flatMap (fun i => leBytes 8 (if m.kind == .restore then 0 else (reg i).v.toNat)) ++ leBytes 48 0

/-- A message takes the next entry of its context's ring of the core (R96).
DESIGN CHOICE, unsafe: assumption 61. -/
def State.ringWrite (s : State) (core : Nat) (m : Msg) : State :=
  let c := s.core core
  let n := Map.get c.ringNext m.ctx 0
  (s.setCore core { c with ringNext := Map.set c.ringNext m.ctx ((n + 1) % 512) }).hbmWrite
    ((s.ctx m.ctx).ovfb * 4096 + core * 2 ^ 16 + 128 * n) m.ringEntry

/-- What a ring entry says: a message as it stands in memory. What the entry has no field for stays as it was sent (R96), but for the
launch where the entry names another context.
DESIGN CHOICE, unsafe: assumption 61. -/
def Msg.ofEntry (m : Msg) (w : Nat → Nat) : Msg :=
  let kind := m.kind.ofCode (bitsOf (w 1) 63 56)
  let ctx := bitsOf (w 1) 47 42
  let carries := kind == .migrate || kind == .restore
  let fe := bitsOf (w 1) 39 32
  let reg := fun (i : Nat) => if fe.testBit i then fullReg (BitVec.ofNat 64 (w (2 + i))) else ({} : Reg)
  { m with kind := kind, pc := w 0 % 2 ^ 56, ctx := ctx, hyp := bitsOf (w 1) 55 48, tcls := (w 1).testBit 41, mig := (w 1).testBit 40,
           tid := if carries then bitsOf (w 1) 15 0 else m.tid
           g := if kind == .restore then m.g else (numsFrom 0 8).map reg
           launch := if ctx = m.ctx then m.launch else none }

/-- The oldest entry of a context's ring at a core, which is to be its message m, as memory holds it now (R96). -/
def State.ringRead (s : State) (core : Nat) (m : Msg) : Msg :=
  let c := s.core core
  let n := (Map.get c.ringNext m.ctx 0 + 512 - (c.ring.filter (fun x => x.ctx == m.ctx)).length % 512) % 512
  let a := (s.ctx m.ctx).ovfb * 4096 + core * 2 ^ 16 + 128 * n
  m.ofEntry (fun i => s.hbmRead (a + 8 * i) 8)

/-- The oldest ring entries move into the inbox while it has room (R96); those of a context that is being saved stay (R76). -/
def State.refill (s : State) (core : Nat) : Nat → State
  | 0 => s
  | n + 1 =>
    let c := s.core core
    match c.ring.find? (fun m => !s.held m.ctx) with
    | none => s
    | some m =>
      if 32 ≤ c.inbox.length then s
      else State.refill (s.setCore core { c with ring := c.ring.erase m, inbox := c.inbox ++ [s.ringRead core m] }) core n

/-- The head of the inbox has changed: its wait counts from now (R121).
DESIGN CHOICE, unsafe: assumption 71. -/
def State.newHead (s : State) (core : Nat) (old : Option Msg) : State :=
  let c := s.core core
  if c.inbox.head? = old then s
  else s.setCore core { c with headSince := if c.inbox.isEmpty then none else some s.cycle }

/-- A message waits at its core, behind those that wait there: in the inbox, or in the ring if the inbox is full, the ring is not empty, or
its context is being saved (R76, R96). -/
def State.waitAt (s : State) (core : Nat) (m : Msg) : State :=
  let c := s.core core
  let s1 :=
    if c.inbox.length < 32 && c.ring.isEmpty && !s.held m.ctx then s.setCore core { c with inbox := c.inbox ++ [m] }
    else
      let t := s.ringWrite core m
      let d := t.core core
      State.refill (t.setCore core { d with ring := d.ring ++ [m] }) core 32
  s1.newHead core c.inbox.head?

/-- A waiting message leaves inbox or ring for a slot, and ring entries move up. -/
def State.unwait (s : State) (core : Nat) (m : Msg) : State :=
  let c := s.core core
  State.newHead (State.refill (s.setCore core (if c.inbox.contains m then { c with inbox := c.inbox.erase m }
                                               else { c with ring := c.ring.erase m })) core 32) core c.inbox.head?

/-- A message has been accepted by its core: the sender that it held goes on (R97). -/
def State.releaseSender (s : State) (stamp : Nat) : State :=
  match List.find? (fun p : Nat × Slot => p.2.wait == .send stamp) s.slots with
  | some (k, x) =>
    match x.st with
    | .migrating => s.vacate k
    | _ => s.setSlot k { x with st := .active, wait := .none }
  | none => s.xferDelivered stamp

/-! ### Slot records (Table 20-6a) -/

/-- The 64 words of the record of a slot. -/
def Slot.recordWords (x : Slot) (k : Nat) : List Nat :=
  let st := match x.st with
    | .parkedReg => 2
    | .parkedWait => 3
    | _ => 1
  let wop := match x.wait with
    | .bar w t => (w.toNat, t.toNat)
    | .barRed w p _ _ _ => (w.toNat, p)
    | .nwait va t _ => (va, t.toNat)
    | _ => (0, 0)
  let full := (numsFrom 0 32).foldl (fun m r => if (x.reg r).st = .full then m + 2 ^ r else m) 0
  let await := (numsFrom 0 32).foldl (fun m r => if x.awaiting.contains r then m + 2 ^ r else m) 0
  [st * 2 ^ 56 + x.pc.toNat,
   x.tid * 2 ^ 48 + x.hyp * 2 ^ 40 + x.ctx * 2 ^ 34 + b2n x.tcls * 2 ^ 33 + b2n x.mig * 2 ^ 32 + k / 16 * 2 ^ 20 + k % 16 * 2 ^ 16,
   full, if st = 2 then await else 0, wop.1, wop.2, x.tcause.toNat, x.tpc.toNat, x.taddr.toNat, b2n x.hnd]
  ++ List.replicate 22 0 ++ (numsFrom 0 32).map (fun r => (x.g r).toNat)

/-- Word i of the record at a physical address. -/
def State.recordWord (s : State) (a i : Nat) : Nat := s.hbmRead (a + 8 * i) 8

/-- The general registers of a record. -/
def State.recordRegs (s : State) (a : Nat) : Map Reg :=
  ((numsFrom 0 32).filter (fun r => (s.recordWord a 2).testBit r)).map (fun r => (r, fullReg (BitVec.ofNat 64 (s.recordWord a (32 + r)))))

/-- Registers that a record awaits and that are not FULL in it. -/
def State.recordAwaits (s : State) (a : Nat) : List Nat :=
  (numsFrom 0 32).filter (fun r => (s.recordWord a 3).testBit r && !(s.recordWord a 2).testBit r)

/-- What a slot record does not hold. -/
def Slot.remainder (x : Slot) : Slot :=
  { x with regs := [], fills := [], awaiting := [], fetched := [], looked := [], yieldFor := [] }

/-- The read that a `tret` of slot k waits for no longer returns the tile, unless another `tret` of the tile waits too (R304). -/
def State.unreturn (s : State) (k tile : Nat) : State :=
  let t := s.tile tile
  if s.slots.any (fun p => p.1 != k && p.2.st == .parkedWait && p.2.wait == .tret tile t.gen) then s
  else s.setTile tile { t with returnLate := false }

/-- A slot that is to be spilled takes back what its parked instruction has sent and what has not been accepted: a message or the return of
a tile, whose instruction issues again, whole (Table 20-6a), or a trap record, whose trap is taken when the thread is back. A release store
that has been performed is complete.
DEDUCED, unsafe: assumption 48. -/
def State.takesBack (s : State) (k : Nat) : State :=
  let x := s.slot k
  match x.wait with
  | .tret tile gen => if (s.tile tile).gen = gen then s.unreturn k tile else s
  | .stored scope =>
    let y := { x with st := .active, wait := .none, pc := x.pc + 4 }
    s.setSlot k (match x.refused with
      | some st =>
        if scope = 5#3 then
          let late : LateTrap := { cause := 18, status := st, reason := 0, faddr := 0, pc := x.pc.toNat, tpc := y.pc.toNat }
          { y with refused := none, late := late :: x.late }
        else y
      | none => y)
  | .send stamp =>
    let keep := fun (m : Msg) => m.stamp != stamp
    let s1 := { s with mesh := s.mesh.filter (fun p => keep p.2)
                       cores := s.cores.map (fun (p : Nat × Core) => (p.1, { p.2 with meshWait := p.2.meshWait.filter keep })) }
    if x.st = .parkedWait then s1.setSlot k { x with wait := .again, pc := x.pc - 4 } else s1.setSlot k { x with wait := .none, st := .active }
  | .record r late =>
    let c := s.ctx x.ctx
    (s.setCtx x.ctx { c with recs := c.recs.erase (r, some (.slot k)) }).setSlot k { x with wait := .again, late := late :: x.late }
  | _ => s

/-- A slot is written to a record and becomes FREE; the thread keeps its identity, and an `nwait` its waiter entry (R148).
DEDUCED, unsafe: assumption 48. -/
def State.spillTo (s : State) (k a : Nat) (onCommand : Bool) : State :=
  let s := s.takesBack k
  let x := s.slot k
  let s1 := s.hbmWrite a ((x.recordWords k).flatMap (leBytes 8))
  let c := s1.ctx x.ctx
  let p : Spilled := { addr := a, core := k / 16, slot := k % 16, onCommand := onCommand, launch := x.launch, rest := x.remainder }
  let s2 := (s1.setCtx x.ctx { c with spilled := Map.set c.spilled x.tid p }).mapWaiters
    (fun l => l.map (fun e => if e.who = .slot k then { e with who := .spilled x.ctx x.tid } else e))
  ((((s2.forgetWriter k).leaveWaits k).setSlot k {}).refreshWindow (k / 16)).tookFree

/-- The record of a thread in its context's spill region. -/
def State.spillAddr (s : State) (ctx tid : Nat) : Nat := (s.ctx ctx).saveb * 4096 + 0x10000 + 512 * tid

/-- A slot can be written now: its fills have landed, the core's buffer has drained, and its earlier remote writes have been performed
(R59, R337). -/
def State.spillReady (s : State) (k : Nat) : State × Bool :=
  if (s.slot k).fills.isEmpty && !s.postedBy k then
    let r := s.drainCore (k / 16)
    (r.1, r.2.isNone && !r.1.postedBy k)
  else (s, false)

/-! ### Admission (Table 8-2, R155, R156) -/

/-- A carrier of a resolved id: the slot it becomes, or none where it is dropped. A RETIRED id has become 0, a DEAD one restarts at the
orphan vector under its heir. -/
def State.admitHyp (s : State) (x : Slot) : Option Slot :=
  let c := s.ctx x.ctx
  match (c.hyp x.hyp).st with
  | .retired => some { x with hyp := c.heirOf x.hyp }
  | .dead =>
    if c.ovec = 0 then none
    else
      let regs := x.regs.filter (fun p => decide (1 ≤ p.1) && decide (p.1 ≤ 7))
      let y := { x with st := .active, wait := .none, awaiting := [], pc := codePc c.ovec.toNat, hyp := c.heirOf x.hyp, regs := regs,
                        late := [], pfx := none }
      some (y.fillReg 0 (BitVec.ofNat 64 x.hyp) 0)
  | _ => some x

/-- The pins of a `pfxl` that does not issue again: its thread's hypothesis is DEAD (R156, R186). -/
def State.carrierPins (s : State) (x : Slot) : State :=
  match x.pfx with
  | some r => if ((s.ctx x.ctx).hyp x.hyp).st = .dead then s.unpinAll x.ctx r.pinned else s
  | none => s

/-- A slot as a carrier starts in it; a dropped carrier gives its identity back. -/
def State.begin (s : State) (k : Nat) (x : Slot) : State :=
  let s := s.carrierPins x
  match s.admitHyp x with
  | some y => (s.startThread k y).reapHyps x.ctx
  | none => (s.releaseTid x.ctx x.tid).afterThread (k / 16) x.ctx x.launch

/-- The slot that a message other than a restore starts. -/
def Msg.slot (m : Msg) (tid : Nat) : Slot :=
  let x : Slot := { pc := codePc m.pc, regs := regsOf m.g, hyp := m.hyp, tid := tid, ctx := m.ctx, tcls := m.tcls, mig := m.mig,
                    launch := m.launch, late := m.late, byMsg := true }
  match m.trap with
  | some (cause, faddr, rec_) => { x with hnd := true, tcause := cause, taddr := faddr, trec := rec_ }
  | none => x

/-- The result of a `bar.red` whose phase has completed while its slot was away.
DEDUCED, unsafe: assumption 45. -/
def State.barRedResume (s : State) (k : Nat) : State :=
  let x := s.slot k
  match x.wait with
  | .barRed w phase d n dep =>
    let b := s.barrier (k / 16) w.toNat
    match b.done.find? (fun r => r.ctx == x.ctx && r.tid == x.tid && r.phase == phase && r.arrival == n) with
    | some r =>
      (s.setBarrier (k / 16) w.toNat { b with done := b.done.erase r }).waitDone k (barScope w.toNat)
        (fun y => y.fillReg d r.result (max dep s.cycle))
    | none => s
  | _ => s

/-- R337, R339: the thread of a slot record resumes in slot k. One that had arrived at a `bar.red` waits for its result, and does not arrive
again, and one whose resolve is in its toll waits for that (R154); any other waiting instruction issues again.
DEDUCED, unsafe: assumption 45. -/
def State.admitRestore (s : State) (k : Nat) (m : Msg) : State :=
  let a := m.pc
  let w0 := s.recordWord a 0
  let w1 := s.recordWord a 1
  let c := s.ctx m.ctx
  let p := Map.get c.spilled m.tid { addr := a, core := k / 16, slot := k % 16 }
  let wait := s.recordAwaits a
  let x : Slot := { p.rest with
    pc := codePc w0, regs := s.recordRegs a, hyp := bitsOf w1 47 40, tid := m.tid, ctx := m.ctx, tcls := w1.testBit 33,
    mig := w1.testBit 32, launch := m.launch, tcause := BitVec.ofNat 64 (s.recordWord a 6), tpc := BitVec.ofNat 64 (s.recordWord a 7),
    taddr := BitVec.ofNat 64 (s.recordWord a 8), hnd := (s.recordWord a 9).testBit 0, wait := .none, awaiting := [], parkedAt := s.cycle,
    st := .active, byMsg := true }
  let go := fun (t : State) (y : Slot) =>
    let d := t.ctx m.ctx
    State.begin (t.setCtx m.ctx { d with spilled := Map.erase d.spilled m.tid }) k y
  match bitsOf w0 63 56 with
  | 2 => go s (if wait.isEmpty then x else { x with st := .parkedReg, awaiting := wait })
  | 3 =>
    match p.rest.wait with
    | .barRed _ _ d n dep =>
      (go s { x with st := .parkedWait
                     wait := .barRed (BitVec.ofNat 64 (s.recordWord a 4)) (s.recordWord a 5 % 2 ^ 16) d n dep }).barRedResume k
    | .resolve id confirm =>
      go s (if c.toll.map (·.tid) = some m.tid then { x with st := .parkedWait, wait := .resolve id confirm } else x)
    | _ => go s x
  | _ => go s x

/-- A message starts in slot k. False: no identity of the cluster's share is free; it waits. -/
def State.startMsg (s : State) (k : Nat) (m : Msg) : State × Bool :=
  match m.kind with
  | .restore => (s.admitRestore k m, true)
  | .migrate => (s.begin k (m.slot m.tid), true)
  | _ =>
    match s.newTid m.ctx (clusterOf (k / 16)) with
    | none => (s, false)
    | some t => (s.begin k (m.slot t), true)

/-! ### Arrival (R96, R97) -/

/-- A message that reaches its core is accepted: its ring keeps an entry for it, or has one that it keeps for no other (Table 6-1). -/
def State.ringRoom (s : State) (core : Nat) (m : Msg) : Bool := m.room || decide (s.ringHeld core m.ctx < 512)

/-- A message may reach its core: one that its core will accept, or one that has to wait there when none is in flight for which the core
keeps an entry. So no message is accepted before one that had reached the core earlier (R97).
DEDUCED, unsafe: assumption 49. -/
def State.mayReach (s : State) (core : Nat) (m : Msg) : Bool :=
  s.ringRoom core m && (m.room || (s.core core).meshWait.isEmpty) || s.mesh.all (fun p => p.1 != core || !p.2.room)

/-- The messages in flight for a core that may arrive next: of the first of each sender (R8), those that may reach it.
DEDUCED, unsafe: assumption 49. -/
def State.arriving (s : State) (core : Nat) : List (Nat × Msg) :=
  ((s.mesh.filter (fun p => p.1 == core)).foldl (fun l p => if l.any (fun q => q.2.src == p.2.src) then l else l ++ [p]) []).filter
    (fun p => s.mayReach core p.2)

/-- A core has been reached by a message: it probes again (R106). -/
def State.wakeCore (s : State) (core : Nat) : State :=
  s.setCore core { s.core core with idleDone := false, probe := 0 }

/-- R96: a message that has reached its core claims a slot when no earlier message waits there, or waits. -/
def State.enter (s : State) (core : Nat) (m : Msg) : State :=
  let waits := (s.waitAt core m).releaseSender m.stamp
  if s.messageWaits core || s.held m.ctx then waits
  else
    match s.pickSlot core with
    | none => waits
    | some k =>
      match s.startMsg k m with
      | (s1, true) => s1.releaseSender m.stamp
      | (_, false) => waits

/-- MESSAGE_ARRIVE: which of the senders' messages arrives first is the event's choice. Behind a message that waits in the mesh for ring
room every later one for the core waits too (R97), unless the ring keeps an entry for it.
DEDUCED, unsafe: assumption 49. -/
def State.messageArrive (s : State) (core n : Nat) : State :=
  match s.arriving core with
  | [] => s
  | p :: rest =>
    let q := (p :: rest).getD (n % (rest.length + 1)) p
    let s1 := State.wakeCore { s with mesh := s.mesh.erase q } core
    let c := s1.core core
    if s1.ringRoom core q.2 && (q.2.room || c.meshWait.isEmpty) then s1.enter core q.2
    else s1.setCore core { c with meshWait := c.meshWait ++ [q.2] }

def execMessageArrive (s : State) : Out := .next (s.messageArrive s.ctl.at_.core s.ctl.at_.n)

/-- RING_ACCEPT: the message that reached the core first of those that wait in the mesh is accepted once its ring has room (R97). -/
def State.ringAccept (s : State) (core : Nat) : State :=
  let c := s.core core
  match c.meshWait with
  | [] => s
  | m :: rest => if s.ringRoom core m then State.enter (s.setCore core { c with meshWait := rest }) core m else s

def execRingAccept (s : State) : Out := .next (s.ringAccept s.ctl.at_.core)

/-- The oldest waiting message is admitted to slot k; one of a context that is being saved is passed over (R76). -/
def State.admitOldest (s : State) (core k : Nat) : State :=
  let c := s.core core
  let may := fun (m : Msg) => !s.held m.ctx
  match (c.inbox.find? may).or ((c.ring.find? may).map (s.ringRead core)), (c.inbox.find? may).or (c.ring.find? may) with
  | some m, some m0 =>
    match (s.unwait core m0).startMsg k m with
    | (s1, true) => s1
    | (_, false) => s
  | _, _ => s

/-- MESSAGE_ADMIT.
DEDUCED, unsafe: assumption 46. -/
def State.messageAdmit (s : State) (core : Nat) : State :=
  match s.pickSlot core with
  | none => s
  | some k => s.admitOldest core k

def execMessageAdmit (s : State) : Out := .next (s.messageAdmit s.ctl.at_.core)

/-! ### Task records (R84, R99, R104, R105) -/

/-- The fields of an ordinal's identifier packed, F0 highest (R81): each extent with its width, from the last field up. -/
def packId : List (Nat × Nat) → Nat → Nat
  | [], _ => 0
  | (e, w) :: r, o => o % e + 2 ^ w * packId r (o / e)

/-- The work identifier of an ordinal. -/
def LaunchRec.workId (r : LaunchRec) (o : Nat) : Nat := packId (r.exts.zip r.widths).reverse o

/-- The slot in which a work item begins. Its first instruction acquires what dispatch acquired at the dependences (R83). -/
def Launch.item (l : Launch) (id o tid : Nat) : Slot :=
  let x : Slot := { pc := codePc (l.r.kimg + l.r.soff + l.r.sentry), tid := tid, ctx := l.ctx, tcls := l.r.tcls, launch := some id, byMsg := true }
  x.fillList 0 (BitVec.ofNat 64 (l.r.workId o) :: l.r.rec_ :: l.r.args)

/-- R105: the top record of a deque starts a thread in slot k, whose first instruction acquires what the push released (R83, R257). -/
def State.popRecord (s : State) (core k : Nat) : State :=
  let c := s.core core
  match c.deque with
  | [] => s
  | t :: rest =>
    match Map.find? s.launches t.launch with
    | none => s
    | some l =>
      if !s.ctxRuns l.ctx then s
      else
        match s.newTid l.ctx (clusterOf core) with
        | none => s
        | some tid =>
          match t.task with
          | .task h pc pay =>
            let x : Slot := { pc := codePc pc, hyp := h, tid := tid, ctx := l.ctx, tcls := t.tcls, launch := some t.launch, byMsg := true }
            State.begin (s.setCore core { c with deque := rest, poppedAt := none }) k (x.fillList 0 (pay ++ [0]))
          | .range first count =>
            let left := if count ≤ 1 then rest else { t with task := .range (first + 1) (count - 1) } :: rest
            let popped := if 1 < count ∧ rest = [] then some s.cycle else none
            State.begin (s.setCore core { c with deque := left, poppedAt := popped }) k (l.item t.launch first tid)

/-- DEQUE_POP: messages come before the deque. -/
def State.dequePop (s : State) (core : Nat) : State :=
  if s.messageWaits core then s
  else match s.pickSlot core with
    | none => s
    | some k => s.popRecord core k

def execDequePop (s : State) : Out := .next (s.dequePop s.ctl.at_.core)

/-! ### Stealing (R106, R107) -/

/-- The mesh distance of two clusters of a die. -/
def meshDist (a b : Nat) : Nat := ((a % 8 : Int) - (b % 8 : Nat)).natAbs + ((a / 8 : Int) - (b / 8 : Nat)).natAbs

/-- The clusters of a die in the order in which a core of cluster c probes them. -/
def probeClusters (c : Nat) : List Nat :=
  (numsFrom 1 14).flatMap (fun d => (numsFrom 0 64).filter (fun b => meshDist c b == d))

/-- Victim i of a core.
DESIGN CHOICE, unsafe: assumption 6. -/
def victimOf (core i : Nat) : Nat :=
  if i < 15 then core / 16 * 16 + (core % 16 + 1 + i) % 16
  else core / 1024 * 1024 + 16 * (probeClusters (core / 16 % 64)).getD ((i - 15) / 16) 0 + (i - 15) % 16

/-- S_ℓ for ℓ = 0, 1, …, nf (R99). -/
def levelSizes : List Nat → List Nat
  | [] => [1]
  | e :: r => match levelSizes r with
    | [] => []
    | n :: ns => e * n :: n :: ns

/-- The multiple of n that lies strictly between f and f + c and nearest to f + c div 2, the lower on a tie. -/
def splitNear (f c n : Nat) : Option Nat :=
  let t := f + c / 2
  let lo := t / n * n
  let hi := lo + n
  let inside := fun (p : Nat) => decide (f < p) && decide (p < f + c)
  if inside lo && inside hi then some (if t - lo ≤ hi - t then lo else hi)
  else if inside lo then some lo
  else if inside hi then some hi
  else none

/-- The point at which a range record is split. -/
def splitPoint (exts : List Nat) (f c : Nat) : Nat :=
  (((levelSizes exts).filterMap (fun n => splitNear f c n)).head?).getD (f + 1)

/-- What a probe takes from a record, and what the victim keeps. `popped`: the owner has taken the first ordinal of the record in this cycle,
and the record is split as it was before (R107). -/
def takeRecord (l : Launch) (t : TaskRec) (popped : Bool) : TaskRec × Option TaskRec :=
  match t.task with
  | .range f c =>
    if c ≤ 1 then (t, none)
    else
      let p := if popped then splitPoint l.r.exts (f - 1) (c + 1) else splitPoint l.r.exts f c
      ({ t with task := .range p (f + c - p) }, if p ≤ f then none else some { t with task := .range f (p - f) })
  | _ => (t, none)

/-- A core that probes: a free slot, nothing to do, and issue budget (R106).
DEDUCED, unsafe: assumption 59. -/
def State.idleCore (s : State) (core : Nat) : Bool :=
  let c := s.core core
  let cl := clusterOf core
  let budget := fun (ctx : Nat) => s.ctxRuns ctx && tempoOpen (s.ctx ctx).budgets.issue (s.balances cl ctx).issue
  !s.fenced cl && !(s.freeSlots core).isEmpty && c.deque.isEmpty && !s.messageWaits core && !c.idleDone
  && (match c.winOwner with
      | some id => ((Map.find? s.launches id).map (fun l => budget l.ctx)).getD false
      | none => s.ctxs.any (fun p => budget p.1))

/-- The thief takes what the probe gave; a free window becomes its launch's. -/
def State.steal (s : State) (thief victim : Nat) (l : Launch) (t : TaskRec) : State :=
  let v := s.core victim
  let r := takeRecord l t (v.poppedAt == some s.cycle)
  let s1 := s.setCore victim { v with deque := v.deque.dropLast ++ r.2.toList, poppedAt := none }
  let c := s1.core thief
  let s2 := s1.setCore thief { c with deque := [r.1], probe := 0, winOwner := some t.launch }
  let s3 := if c.winOwner.isSome then s2 else s2.fillWindow l (clusterOf thief) (thief % 16) false
  s3.refreshWindow victim

/-- The owner of a deque takes its only record, whole, in this cycle: a free slot of the core pops it (R105), or the `dqpop` that the core
issues does (R258); one that traps, parks or waits behind a late trap takes nothing. A thief's probe of that cycle is then refused, unless what stands there is the part split off a record whose first
ordinal the owner has popped in the cycle (R107). -/
def State.ownerTakes (s : State) (core : Nat) : Bool :=
  let whole := fun (t : TaskRec) => match t.task with
    | .range _ c => decide (c ≤ 1)
    | _ => true
  match (s.core core).deque with
  | [t] =>
    let pops := match Map.find? s.launches t.launch with
      | some l => !s.messageWaits core && !(s.freeSlots core).isEmpty && s.ctxRuns l.ctx && (s.newTid l.ctx (clusterOf core)).isSome
      | none => false
    let issues := match s.issuing core with
      | some (k, some (.dqpop d)) => (match t.task with
        | .task h _ _ =>
          let x := s.slot k
          h == x.hyp && (s.core core).winOwner.isSome && (s.core core).winOwner == x.launch && (x.late.isEmpty || x.finishing)
          && wellFormed (.dqpop d) && (awaited x [] (d :: (implicit 7).map (·.1))).isEmpty
        | _ => false)
      | _ => false
    whole t && (s.core core).poppedAt != some s.cycle && (pops || issues)
  | _ => false

/-- STEAL_PROBE: the next victim gives its bottom record, or refuses. -/
def State.stealProbe (s : State) (core : Nat) : State :=
  if !s.idleCore core then s
  else
    let c := s.core core
    let v := victimOf core c.probe
    let refused := s.setCore core (if c.probe + 1 < 1023 then { c with probe := c.probe + 1 } else { c with probe := 0, idleDone := true })
    match (s.core v).deque.getLast? with
    | none => refused
    | some t =>
      match Map.find? s.launches t.launch with
      | none => refused
      | some l => if (c.winOwner.isSome && c.winOwner != some t.launch) || s.ownerTakes v then refused else s.steal core v l t

def execStealProbe (s : State) : Out := .next (s.stealProbe s.ctl.at_.core)

end Sys2Proof.Machine
end

