-- ==== Sys2Proof/Machine/SlotEvents.lean ====
section
/-! DEFINITION. What happens to slots, lines, buffers and tiles between instructions: fills, direct writes, waits that are met, spills,
notification words, line expiry, drains, chimes and late returns (R46, R48, R116, R117, R119, R121, R130, R148, R304, R338). -/

namespace Sys2Proof.Machine

/-! ### Spills (R121, R337, R338) -/

/-- SPILLCMD has a result. -/
def State.spillResult (s : State) (res : Nat) : State := { s with mgmt := { s.mgmt with spillRes := res } }

/-- A spill that SPILLCMD has asked for is refused, made, or waits for fills to land. A slot that is ACTIVE or ORPHANED is spilled too.
DESIGN CHOICE, unsafe: assumption 83. -/
def State.spillCommand (s : State) : State :=
  match s.mgmt.spillRes, s.mgmt.spillJob with
  | 1, (ctx, k) =>
    let x := s.slot k
    if x.st = .free ∨ x.st = .migrating ∨ x.ctx ≠ ctx ∨ x.hnd then s.spillResult 3
    else if x.leaving then s
    else
      match s.spillReady k with
      | (s1, true) => (s1.spillTo k (s1.spillAddr x.ctx x.tid) true).spillResult 2
      | (s1, false) => s1
  | _, _ => s

/-- The fields of SPILLCMD take what is written (Table 20-7). -/
def State.spillFields (s : State) (ctx core slot tid : Nat) : State :=
  { s with mgmt := { s.mgmt with spillCtx := ctx, spillCore := core, spillSlot := slot, spillTid := tid } }

/-- Command 1, with the fields as they stand: it is ignored while a spill is in progress. -/
def State.startSpill (s : State) : State :=
  if s.mgmt.spillRes = 1 then s
  else State.spillCommand { s with mgmt := { s.mgmt with spillRes := 1, spillJob := (s.mgmt.spillCtx, 16 * s.mgmt.spillCore + s.mgmt.spillSlot) } }

def execSpillcmdSpill (ctx : BitVec 6) (core : BitVec 12) (slot : BitVec 4) (s : State) : Out :=
  s.whenReady (s.spillFields ctx.toNat core.toNat slot.toNat s.mgmt.spillTid).startSpill

/-- The restore message of a spilled thread leaves for its core. -/
def State.sendRestore (s : State) (ctx tid : Nat) (p : Spilled) : State :=
  let s := (s.walkForgets (.spilled ctx tid)).mapWaiters (fun l => l.filter (fun e => e.who != .spilled ctx tid))
  let c := s.ctx ctx
  let m : Msg := { kind := .restore, pc := p.addr, ctx := ctx, hyp := s.spilledHyp p, tid := tid, tcls := (s.recordWord p.addr 1).testBit 33,
                   launch := p.launch, src := .engine p.core }
  (s.setCtx ctx { c with spilled := Map.set c.spilled tid { p with sent := true } }).post p.core m

/-- Command 2: the record of a tid is admitted as a restore message; a tid that is not spilled is refused. -/
def State.readmitCommand (s : State) (ctx tid : Nat) : State :=
  match Map.find? (s.ctx ctx).spilled tid with
  | some p => if p.sent || s.held ctx then s.spillResult 3 else (s.sendRestore ctx tid p).spillResult 2
  | none => s.spillResult 3

/-- Command 2, with the fields as they stand: it is ignored while a spill is in progress. -/
def State.startReadmit (s : State) : State :=
  if s.mgmt.spillRes = 1 then s else s.readmitCommand s.mgmt.spillCtx s.mgmt.spillTid

def execSpillcmdReadmit (ctx : BitVec 6) (tid : BitVec 16) (s : State) : Out :=
  s.whenReady (s.spillFields ctx.toNat s.mgmt.spillCore s.mgmt.spillSlot tid.toNat).startReadmit

/-- The spill engine may choose the slot (R121): it is PARKED_WAIT, or PARKED_REG on an EMPTY register.
DEDUCED, unsafe: assumption 48. -/
def State.mayEvict (s : State) (k : Nat) : Bool :=
  let x := s.slot k
  x.st == .parkedWait || (x.st == .parkedReg && x.awaiting.any (fun r => (x.reg r).st == .empty))

/-- The slot that has been parked longest, the lowest number on a tie.
DEDUCED, unsafe: assumption 48. -/
def State.longestParked (s : State) (core : Nat) : Option Nat :=
  ((numsFrom (16 * core) 16).filter s.mayEvict).foldl (fun best k => match best with
    | none => some k
    | some b => if (s.slot k).parkedAt < (s.slot b).parkedAt then some k else some b) none

/-- SPILL: the head message has waited 4,096 cycles and every slot is occupied. -/
def State.spillEngine (s : State) (core : Nat) : State :=
  match (s.core core).headSince, s.longestParked core with
  | some t, some k =>
    if t + 4096 ≤ s.cycle ∧ (s.freeSlots core).isEmpty then
      match s.spillReady k with
      | (s1, true) => (s1.spillTo k (s1.spillAddr (s.slot k).ctx (s.slot k).tid) false).admitOldest core k
      | (s1, false) => s1
    else s
  | _, _ => s

def execSpill (s : State) : Out := .next (s.spillEngine s.ctl.at_.core)

/-- What is known of the word that a spilled `nwait` awaits: its value, or that it is still away, with the READ that asks for it where it
is on another module. A word that cannot be read counts as met: the `nwait` issues again, and faults.
DESIGN CHOICE, unsafe: assumption 88. -/
inductive SpilledWord where
  | value (v : Nat)
  | gone
  | away
  | ask (rmod pa : Nat)
  deriving DecidableEq, Repr

/-- The word of a spilled `nwait` (R121, R148), as a walk and a search of the versions find it (R160, R172). -/
def State.spilledWord (s : State) (ctx tid : Nat) (p : Spilled) (va : Nat) : State × SpilledWord :=
  let cl := clusterOf p.core
  let hyp := s.spilledHyp p
  let look := fun (a : Nat) (exempt : Bool) => match s.engineXlate (.spilled ctx tid) cl ctx a .read (!p.rest.hnd) exempt with
    | (s1, .ok e pa) => (match tgtOf e pa with
      | .sp b => (s1, SpilledWord.value (leNat (s1.spBytes b 8)))
      | .hbm b =>
        if s1.poisoned b 8 then (s1, .gone)
        else if s1.lookupWaits cl ctx hyp b 8 then (s1, .away)
        else (s1.lookedUp cl ctx hyp b 8, .value (leNat (s1.visBytes ctx hyp b 8)))
      | .host b => (s1, if s1.hostFails b 8 then .gone else .value (leNat (Memory.readBytes s1.host b 8)))
      | .remote rmod b => (s1, match p.seen with
        | some (0, v) => .value v
        | some _ => .gone
        | none => .ask rmod b))
    | (s1, .fault _) => (s1, .gone)
    | (s1, _) => (s1, .away)
  match windowOf va with
  | .scratch off => let a := spAddr cl off
                    (s.tookFree, if s.spPoisoned a 8 then .gone else .value (leNat (s.spBytes a 8)))
  | .priv off => look (s.arena ctx tid off) true
  | .global => look va false
  | .none => (s, .gone)

/-- What a thread that the engine spilled awaits has come (R121). A wait that R121 does not name holds nothing back.
DESIGN CHOICE, unsafe: assumption 88. -/
def State.spillOver (s : State) (ctx tid : Nat) (p : Spilled) : State × Bool :=
  if p.rest.st = .parkedReg then (s, (s.recordAwaits p.addr).isEmpty)
  else
    match p.rest.wait with
    | .bar w token => (s, bitsOf token.toNat 15 0 != (s.barrier p.core w.toNat).phase)
    | .barRed w phase _ n _ => (s, (s.barrier p.core w.toNat).done.any (fun r => r.ctx == ctx && r.tid == tid && r.phase == phase && r.arrival == n))
    | .nwait va th _ =>
      match s.waiterOf (.spilled ctx tid) with
      | e :: _ => (s, e.met)
      | [] =>
        if p.met then (s, true)
        else match s.spilledWord ctx tid p va with
          | (s1, .value v) => (s1, decide (th.toNat ≤ v))
          | (s1, .gone) => (s1, true)
          | (s1, _) => (s1, false)
    | .resolve _ _ => (s, ((s.ctx ctx).toll.map (·.tid)) != some tid)
    | _ => (s, true)

/-- The READ of the word of a spilled `nwait` has not been answered. -/
def State.spilledAsked (s : State) (ctx tid : Nat) : Bool :=
  s.links.reqs.any (fun r => r.who == .pollSpilled ctx tid) || s.links.egress.any (fun e => e.who == .pollSpilled ctx tid)

/-- A word of another module is polled: the value that the last READ gave is used up. -/
def State.pollSpilledWord (s : State) (ctx tid : Nat) (p : Spilled) : State :=
  match p.rest.wait with
  | .nwait va _ _ =>
    if p.rest.st = .parkedReg ∨ s.spilledAsked ctx tid ∨ s.waiterOf (.spilled ctx tid) ≠ [] then s
    else
      match s.spilledWord ctx tid { p with seen := none } va with
      | (s1, .ask rmod pa) =>
        let c := s1.ctx ctx
        (s1.setCtx ctx { c with spilled := Map.set c.spilled tid { p with seen := none } }).egress (clusterOf p.core) ctx
          { op := 2, dst := rmod, src := s.links.lmod, len := 7, addr := pa } (.pollSpilled ctx tid)
      | (s1, _) => s1
  | _ => s

/-- SPILL_READMIT. -/
def State.spillReadmit (s : State) (ctx tid : Nat) : State :=
  match Map.find? (s.ctx ctx).spilled tid with
  | none => s
  | some p =>
    if p.onCommand || p.sent || !s.ctxRuns ctx then s
    else match s.spillOver ctx tid p with
      | (s1, true) => s1.sendRestore ctx tid p
      | (s1, false) => s1.pollSpilledWord ctx tid p

def execSpillReadmit (s : State) : Out := .next (s.spillReadmit s.ctl.at_.ctx s.ctl.at_.tid)

/-! ### Fills (R116, R120, R123) -/

/-- A PARKED_REG slot whose registers have come issues again (Table 8-3). -/
def Slot.ready (x : Slot) : Slot :=
  if x.st = .parkedReg ∧ x.wait = .none ∧ x.awaiting.all (fun r => (x.reg r).st == .full) then { x with st := .active, awaiting := [] } else x

/-- A fill lands in slot k. -/
def State.land (s : State) (k : Nat) (f : Fill) : State :=
  let x := s.slot k
  let left := x.fills.erase f
  if x.leaving then
    let s1 := s.setSlot k { x with fills := left }
    if left.isEmpty then s1.freeSlot k else s1
  else
    let y := { x with fills := left, late := x.late ++ f.fault.toList }
    let s1 := s.setSlot k (y.fillReg f.reg f.v f.dep).ready
    match x.wait with
    | .migrating dst => if x.st = .migrating ∧ left.isEmpty then s1.depart k dst else s1
    | _ => s1

/-- REGISTER_FILL: a result that is known lands in its register.
DESIGN CHOICE, unsafe: assumption 7. -/
def State.registerFill (s : State) (k r : Nat) : State :=
  match (s.slot k).fills.find? (fun f => f.reg == r && f.src == .ready) with
  | none => s
  | some f => (s.land k f).spillCommand

def execRegisterFill (s : State) : Out := .next (s.registerFill s.key s.ctl.at_.reg)

/-! ### Direct writes (R117, R252, R326) -/

/-- The writer learns of the outcome: a refusal counts in its RFREF, or in what `cstat` reports. -/
def State.directOutcome (s : State) (w : DirectWrite) (ok : Bool) : State :=
  match w.from_ with
  | .slot k tid =>
    let x := s.slot k
    if !ok && x.st != .free && x.tid == tid && x.ctx == w.ctx then s.setSlot k { x with rfref := min (x.rfref + 1) 65535 } else s
  | .chuck cl id _ =>
    (numsFrom 0 20).foldl (fun t f =>
      let q := t.fifo cl f
      if q.pushed.any (fun p => p.id == id) then
        t.setFifo cl f { q with pushed := q.pushed.map (fun p =>
          if p.id = id then { p with complete := true, status := w.v.toNat % 256, refusedWrite := !ok } else p) }
      else t) s

/-- The slot of a core that a direct write names. -/
def State.directSlot (s : State) (core : Nat) (w : DirectWrite) : Option Nat :=
  (numsFrom (16 * core) 16).find? (fun k =>
    let x := s.slot k
    x.st != .free && x.st != .migrating && !x.leaving && x.tid == w.tid && x.ctx == w.ctx)

/-- A direct write reaches its core: it lands in an EMPTY register of the thread, or of its image while the thread is SPILLED (R121), or is
refused. The first use of the
register is an acquire (R63): the core's L1 is emptied as the write lands, so that no line is older than the writes that the release
covers by the time the register is used (R46). -/
def State.directLands (s : State) (core : Nat) (w : DirectWrite) : State :=
  match s.directSlot core w with
  | some k =>
    let x := s.slot k
    if (x.reg w.reg).st = .empty then ((s.setSlot k (x.fillReg w.reg w.v s.cycle).ready).dropL1 core).directOutcome w true
    else s.directOutcome w false
  | none =>
    match Map.find? (s.ctx w.ctx).spilled w.tid with
    | some p =>
      let full := s.recordWord p.addr 2
      if p.core = core ∧ !full.testBit w.reg then
        ((s.hbmWriteNat (p.addr + 16) 8 (full + 2 ^ w.reg)).hbmWriteNat (p.addr + 8 * (32 + w.reg)) 8 w.v.toNat).directOutcome w true
      else s.directOutcome w false
    | none => s.directOutcome w false

/-- The agent that made a direct write. -/
def DirectWrite.sender (w : DirectWrite) : Sender :=
  match w.from_ with
  | .slot _ tid => .thread w.ctx tid
  | .chuck cl _ _ => .chuck cl

/-- The direct writes on their way to a core that may land next: the first of each sender (R8). -/
def directHeads (l : List DirectWrite) : List DirectWrite :=
  l.foldl (fun r w => if r.any (fun v => v.sender == w.sender) then r else r ++ [w]) []

/-- The thread that a direct write names issues in this cycle: its instruction goes first (R117, R239). -/
def State.directLater (s : State) (core : Nat) (w : DirectWrite) : Bool :=
  match s.directSlot core w, s.issuing core with
  | some k, some (j, _) => k == j
  | _, _ => false

/-- DIRECT_WRITE: which of the senders' first writes lands is the event's choice. -/
def State.directWrite (s : State) (core n : Nat) : State :=
  let c := s.core core
  match directHeads c.directWrites with
  | [] => s
  | w :: rest =>
    let v := (w :: rest).getD (n % (rest.length + 1)) w
    if s.directLater core v then s
    else State.directLands (s.setCore core { c with directWrites := c.directWrites.erase v }) core v

def execDirectWrite (s : State) : Out := .next (s.directWrite s.ctl.at_.core s.ctl.at_.n)

/-! ### Waits that are met (R119) -/

/-- A post of the slot that waits at the head of a handle queue may enter now; a Lathe that was released takes none (R94).
DEDUCED, unsafe: assumption 65. -/
def State.postOpens (s : State) (k : Nat) : Bool :=
  (numsFrom (4 * clusterOf (k / 16)) 4).any (fun l =>
    let y := s.lathe l
    (y.hqWait.head? == some (.slot k) && decide (y.hq.length < 64)) || (y.bound.isNone && y.hqWait.contains (.slot k)))

/-- SLOT_WAKE. -/
def State.slotWake (s : State) (k : Nat) : State :=
  let x := s.slot k
  match x.st, x.wait with
  | .parkedReg, _ => s.setSlot k x.ready
  | .migrating, .migrating dst => if x.fills.isEmpty then s.depart k dst else s
  | .parkedWait, .drain w => if s.stuckOver w then s.again k else s
  | .parkedWait, .again => if s.postOpens k then s.again k else s
  | .parkedWait, .port c => if c < s.cycle then s.again k else s
  | .parkedWait, .acks all => if (if all then s.unacked x.ctx else s.postedBy k) then s else s.again k
  | .parkedWait, .stored scope => s.storedWake k scope
  | .parkedWait, .ckpt live lapses before => if s.xfersBefore x.ctx before then s else s.ckptDone k live lapses
  | .parkedWait, .bar w token =>
    if bitsOf token.toNat 15 0 ≠ (s.barrier (k / 16) w.toNat).phase then s.waitDone k (barScope w.toNat) id else s
  | .parkedWait, .barRed _ _ _ _ _ => s.barRedResume k
  | _, _ => s

def execSlotWake (s : State) : Out := .next (s.slotWake s.key).spillCommand

/-! ### Notification words (R148) -/

/-- The word that slot k waits on. -/
def State.nwaitTarget (s : State) (k va : Nat) : State × (Tr ⊕ Tgt) :=
  let x := s.slot k
  let cl := clusterOf (k / 16)
  let go := fun (a : Nat) (exempt : Bool) => match s.engineXlate (.poll k) cl x.ctx a .read (!x.hnd) exempt with
    | (s1, .ok e pa) => (s1, Sum.inr (tgtOf e pa))
    | (s1, r) => (s1, Sum.inl r)
  match windowOf va with
  | .scratch off => (s, .inr (.sp (spAddr cl off)))
  | .priv off => go (s.arena x.ctx x.tid off) true
  | .global => go va false
  | .none => (s, .inl (.fault 1))

/-- A poll of slot k's word has not been answered. -/
def State.pollAsked (s : State) (k : Nat) : Bool :=
  s.links.reqs.any (fun r => r.who == .poll k) || s.links.egress.any (fun e => e.who == .poll k)

/-- The `nwait` of slot k ends with a fault. -/
def State.nwaitFails (s : State) (k va reason status : Nat) : State :=
  let x := s.slot k
  (s.leaveWaits k).trapSlot k (tDATA_FAULT (s.faddrOf x.ctx x.tid va) reason status) x.pc.toNat x.pc.toNat

/-- A value of the word has been read. -/
def State.nwaitValue (s : State) (k v : Nat) : State :=
  match (s.slot k).wait with
  | .nwait _ th scope => if th.toNat ≤ v then (s.leaveWaits k).nwaitDone k scope else s
  | _ => s

/-- The word is read again. -/
def State.nwaitCheck (s : State) (k : Nat) : State :=
  match (s.slot k).st, (s.slot k).wait with
  | .parkedWait, .nwait va _ _ =>
    match s.nwaitTarget k va with
    | (s1, .inl (.fault r)) => s1.nwaitFails k va r 0
    | (s1, .inl _) => s1
    | (s0, .inr t) =>
      if s0.pollAsked k then s0
      else match s0.pollWord k t with
        | (s1, .fault r st) => s1.nwaitFails k va r st
        | (s1, .sent) => s1
        | (s1, .value v) => s1.nwaitValue k v
  | _, _ => s

/-- The slot has a waiter entry at a slice. -/
def State.hasWaiter (s : State) (k : Nat) : Bool := !(s.waiterOf (.slot k)).isEmpty

/-- A waiter that a write has met is woken, whatever the word has become since (R148). Its core's line of the word is older than that
write (R53). -/
def State.nwaitWake (s : State) (k : Nat) : State :=
  match (s.slot k).wait with
  | .nwait _ _ scope =>
    match (s.waiterOf (.slot k)).find? (·.met) with
    | some e => ((s.leaveWaits k).nwaitDone k scope).dropLine (k / 16) e.pa
    | none => s.nwaitCheck k
  | _ => s

def execNwaitWake (s : State) : Out := .next (if s.hasWaiter s.key then s.nwaitWake s.key else s)
def execNwaitPoll (s : State) : Out := .next (if s.hasWaiter s.key then s else s.nwaitCheck s.key)

/-! ### Lines and buffers (R46, R48) -/

/-- L1_LINE_EXPIRY: lines of a core that are 4,096 cycles old are invalidated. -/
def State.expireLines (s : State) (core : Nat) : State :=
  let c := s.core core
  s.setCore core { c with l1 := c.l1.filter (fun l => decide (s.cycle < l.filled + 4096)) }

def execL1LineExpiry (s : State) : Out := .next (s.expireLines s.ctl.at_.core)

/-- STORE_BUFFER_DRAIN: an entry of a core's buffer drains; which one is the event's choice. -/
def State.drainOne (s : State) (core n : Nat) : State :=
  match (s.core core).gather with
  | [] => s
  | e :: rest =>
    let v := (e :: rest).getD (n % (rest.length + 1)) e
    (s.drainThese core (fun f => f == v)).1

def execStoreBufferDrain (s : State) : Out := .next (s.drainOne s.ctl.at_.core s.ctl.at_.n)

/-! ### Chimes and late returns (R130, R304) -/

def execChime (s : State) : Out := .next (s.chimeDue (tileKey s.ctl.at_.cluster s.ctl.at_.idx))

def execTretAfterRead (s : State) : Out := .next (s.tretLate (tileKey s.ctl.at_.cluster s.ctl.at_.idx))

end Sys2Proof.Machine
end

