-- ==== Sys2Proof/Machine/Bundle.lean ====
section
/-! DEFINITION. Bundles of a Lathe: the registers that slot operations read and write, and the decoding of a bundle (R202, R207 to
R213, R278, R280). -/

namespace Sys2Proof.Machine

/-! ### Registers of slot operations (R278) -/

/-- qb, where the second operand is a register (R282). -/
def qbRead (i : BitVec 1) (imm : BitVec 17) : List LReg := if i = 0#1 then [.q (imm.extractLsb' 13 4).toNat] else []

/-- Two registers of vectors. -/
def vv (a b : BitVec 5) : List LReg := [.v a.toNat, .v b.toNat]

/-- The width of the lanes of a type (Table 14-8). -/
def laneWidth (ty : Nat) : Nat := if ty < 3 then 32 else 16

/-- The registers that a `vcvt` operand of type ty takes where the other type is st: a pair where a 16-bit vector meets two 32-bit ones. -/
def cvtRegs (v : BitVec 5) (ty other : BitVec 3) : List LReg :=
  if laneWidth ty.toNat = 32 ∧ laneWidth other.toNat = 16 then [.v v.toNat, .v (v.toNat + 1)] else [.v v.toNat]

/-- The registers that an operation reads. -/
def slotReads (op : Instr) : List LReg :=
  match op with
  | .sadd _ qa i imm => .q qa.toNat :: qbRead i imm
  | .ssub _ qa i imm => .q qa.toNat :: qbRead i imm
  | .smul _ qa i imm => .q qa.toNat :: qbRead i imm
  | .sand _ qa i imm => .q qa.toNat :: qbRead i imm
  | .sor _ qa i imm => .q qa.toNat :: qbRead i imm
  | .sxor _ qa i imm => .q qa.toNat :: qbRead i imm
  | .sshl _ qa i imm => .q qa.toNat :: qbRead i imm
  | .sshr _ qa i imm => .q qa.toNat :: qbRead i imm
  | .scmp _ qa qb _ => [.q qa.toNat, .q qb.toNat]
  | .sb cond qa _ => if cond = 0#2 then [] else [.q qa.toNat]
  | .loop i qa _ => if i = 0#1 then [.q qa.toNat] else []
  | .qpostLathe _ h => [.h h.toNat]
  | .tretLathe h => [.h h.toNat]
  | .setkLathe qa _ => [.q qa.toNat]
  | .vadd _ va vb _ => vv va vb
  | .vsub _ va vb _ => vv va vb
  | .vmul _ va vb _ => vv va vb
  | .vfma vd va vb _ => .v vd.toNat :: vv va vb
  | .vmax _ va vb _ => vv va vb
  | .vmin _ va vb _ => vv va vb
  | .vand _ va vb _ => vv va vb
  | .vor _ va vb _ => vv va vb
  | .vxor _ va vb _ => vv va vb
  | .vshl _ va vb _ => vv va vb
  | .vshr _ va vb _ => vv va vb
  | .vcvt _ va ty st => cvtRegs va st ty
  | .vbcast _ qa _ => [.q qa.toNat]
  | .vred _ va _ _ => [.v va.toNat]
  | .vsel vd va vb _ => .v vd.toNat :: vv va vb
  | .vcmp _ va vb _ _ => vv va vb
  | .vmac16 vd va vb _ => .v vd.toNat :: vv va vb
  | .vrow _ a _ _ _ => [.a a.toNat]
  | .vwacc a va _ _ _ => [.a a.toNat, .v va.toNat]
  | .fexp2 _ va => [.v va.toNat]
  | .flog2 _ va => [.v va.toNat]
  | .frcp _ va => [.v va.toNat]
  | .frsqrt _ va => [.v va.toNat]
  | .fsin _ va => [.v va.toNat]
  | .fcos _ va => [.v va.toNat]
  | .smx ao as_ qs hout => [.a ao.toNat, .a as_.toNat, .q qs.toNat, .h hout.toNat]
  | .smxm ad ae => [.a ad.toNat, .a ae.toNat]
  | .smxf a => [.a a.toNat]
  | .mma _ hA hB _ _ _ qo => [.h hA.toNat, .h hB.toNat, .q qo.toNat]
  | .mmat _ hA hB _ _ _ qo => [.h hA.toNat, .h hB.toNat, .q qo.toNat]
  | .xchg _ va => [.v va.toNat]
  | .tld _ h _ _ => [.h h.toNat]
  | .tstLathe va h _ _ _ => [.v va.toNat, .h h.toNat]
  | .tmask _ h _ => [.h h.toNat]
  | .tout va qa qb => [.v va.toNat, .q qa.toNat, .q qb.toNat]
  | .toutC va _ _ => [.v va.toNat]
  | .tseal h => [.h h.toNat]
  | _ => []

/-- The registers that an operation writes. -/
def slotWrites (op : Instr) : List LReg :=
  match op with
  | .sadd qd _ _ _ => [.q qd.toNat]
  | .ssub qd _ _ _ => [.q qd.toNat]
  | .smul qd _ _ _ => [.q qd.toNat]
  | .sand qd _ _ _ => [.q qd.toNat]
  | .sor qd _ _ _ => [.q qd.toNat]
  | .sxor qd _ _ _ => [.q qd.toNat]
  | .sshl qd _ _ _ => [.q qd.toNat]
  | .sshr qd _ _ _ => [.q qd.toNat]
  | .scmp qd _ _ _ => [.q qd.toNat]
  | .smovi qd _ => [.q qd.toNat]
  | .smovk qd _ => [.q qd.toNat]
  | .qwait hd qd => [.h hd.toNat, .q qd.toNat]
  | .getkLathe qd _ => [.q qd.toNat]
  | .vadd vd _ _ _ => [.v vd.toNat]
  | .vsub vd _ _ _ => [.v vd.toNat]
  | .vmul vd _ _ _ => [.v vd.toNat]
  | .vfma vd _ _ _ => [.v vd.toNat]
  | .vmax vd _ _ _ => [.v vd.toNat]
  | .vmin vd _ _ _ => [.v vd.toNat]
  | .vand vd _ _ _ => [.v vd.toNat]
  | .vor vd _ _ _ => [.v vd.toNat]
  | .vxor vd _ _ _ => [.v vd.toNat]
  | .vshl vd _ _ _ => [.v vd.toNat]
  | .vshr vd _ _ _ => [.v vd.toNat]
  | .vcvt vd _ ty st => cvtRegs vd ty st
  | .vbcast vd _ _ => [.v vd.toNat]
  | .vred qd _ _ _ => [.q qd.toNat]
  | .vsel vd _ _ _ => [.v vd.toNat]
  | .vcmp vd _ _ _ _ => [.v vd.toNat]
  | .vmac16 vd _ _ _ => [.v vd.toNat]
  | .vrow vd _ _ _ _ => [.v vd.toNat]
  | .vwacc a _ _ _ _ => [.a a.toNat]
  | .fexp2 vd _ => [.v vd.toNat]
  | .flog2 vd _ => [.v vd.toNat]
  | .frcp vd _ => [.v vd.toNat]
  | .frsqrt vd _ => [.v vd.toNat]
  | .fsin vd _ => [.v vd.toNat]
  | .fcos vd _ => [.v vd.toNat]
  | .smx ao _ _ _ => [.a ao.toNat]
  | .smxm ad _ => [.a ad.toNat]
  | .smxf a => [.a a.toNat]
  | .smxz a => [.a a.toNat]
  | .mma ad _ _ _ _ _ _ => [.a ad.toNat]
  | .mmat ad _ _ _ _ _ _ => [.a ad.toNat]
  | .xchg vd _ => [.v vd.toNat]
  | .tld vd _ _ _ => [.v vd.toNat]
  | .tmask qd _ _ => [.q qd.toNat]
  | _ => []

/-! ### Decoding (R207, R210) -/

/-- The numbers of the slots whose words a bundle holds, in order (Table 14-5). -/
def presentSlots (head : Word32) : List Nat := (numsFrom 0 8).filter (fun k => head.getLsbD (24 + k))

/-- The length of a bundle in bytes (R207). -/
def bundleSize (head : Word32) : Nat := 4 + 4 * (presentSlots head).length

/-- The vector pairs of an operation (R202). -/
def vectorPairs (op : Instr) : List Nat :=
  let one := fun (l : List LReg) => match l with
    | [.v a, .v _] => [a]
    | _ => []
  match op with
  | .vcvt vd va ty st => one (cvtRegs vd ty st) ++ one (cvtRegs va st ty)
  | _ => []

/-- The single vector registers of an operation. -/
def vectorSingles (op : Instr) : List Nat :=
  let pairs := vectorPairs op
  ((slotReads op ++ slotWrites op).filterMap (fun r => match r with
    | .v n => some n
    | _ => none)).filter (fun n => !pairs.any (fun p => n == p || n == p + 1))

/-- R202: a pair of one operation overlaps a register of the other in part.
DEDUCED, unsafe: assumption 14. -/
def pairOverlap (a b : Instr) : Bool :=
  let one := fun (x y : Instr) => (vectorPairs x).any (fun p => (vectorSingles y).any (fun n => n == p || n == p + 1))
  one a b || one b a

/-- R210: two operations write one register, or overlap in part.
DEDUCED, unsafe: assumption 14. -/
def slotsClash (a b : Instr) : Bool := (slotWrites a).any (fun r => (slotWrites b).contains r) || pairOverlap a b

/-- The decode conditions of the head word (R210, R280): a reserved bit, or a lend mark together with `loop` or a branch that can be
taken. -/
def headBad (head : Word32) (sWord : Option Word32) : Bool :=
  let lend := head.getLsbD 19
  let ends := match sWord with
    | none => false
    | some w => w.extractLsb' 26 6 == 13#6 || (w.extractLsb' 26 6 == 12#6 && w.extractLsb' 24 2 != 3#2)
  head.extractLsb' 0 18 != 0#18 || (lend && ends)

/-- The slots of a bundle decoded: its operations, or the number of the first slot at fault.
DEDUCED, unsafe: assumption 14. -/
def decodeSlots (gang : Bool) : List (Nat × Word32) → List (Nat × Instr) → Except Nat (List (Nat × Instr))
  | [], done => .ok done.reverse
  | (k, w) :: rest, done =>
    match decodeSlot (slotKind k) w with
    | .error _ => .error k
    | .ok i =>
      if done.any (fun p => slotsClash p.2 i) then .error k
      else
        match i with
        | .xchg _ _ => if gang then decodeSlots gang rest ((k, i) :: done) else .error k
        | _ => decodeSlots gang rest ((k, i) :: done)

/-- R210: the bundle at an address; or the number of the first slot at fault, 8 for the head word. A lend mark with an empty loop stack
is a decode condition too (R280). -/
def decodeBundle (addr : Nat) (noLoop : Bool) (words : List Word32) : Except Nat Bundle :=
  match words with
  | [] => .error 8
  | head :: ws =>
    let slots := (presentSlots head).zip ws
    let sWord := (slots.find? (fun p => p.1 == 0)).map (·.2)
    if headBad head sWord || (head.getLsbD 19 && noLoop) then .error 8
    else
      match decodeSlots (head.getLsbD 18) slots [] with
      | .error k => .error k
      | .ok ops =>
        .ok { addr := addr, size := bundleSize head, dly := (head.extractLsb' 20 4).toNat, lend := head.getLsbD 19,
              gang := head.getLsbD 18, ops := ops }

/-- The first slot that an operation may stand in. -/
def slotNoOf (op : Instr) : Nat :=
  match kindOf op with
  | some .s => 0
  | some .v => 1
  | some .f => 3
  | some .m => 4
  | some .e => 5
  | some .t => 6
  | none => 8

/-- The words of a bundle: its head word, then those of its operations (R207). -/
def encodeBundle (b : Bundle) : List Word32 :=
  let tmpl := b.ops.foldl (fun n p => n + 2 ^ p.1) 0
  BitVec.ofNat 32 (tmpl * 2 ^ 24 + b.dly * 2 ^ 20 + b2n b.lend * 2 ^ 19 + b2n b.gang * 2 ^ 18)
    :: b.ops.map (fun p => (encodeSlot p.2).getD 0)

end Sys2Proof.Machine
end

