-- ==== Sys2Proof/Machine/LatheUnit.lean ====
section
/-! DEFINITION. What the slot operations of a Lathe share: its registers and their landing, the hazard monitor, and the reading of sealed
tiles (R135, R278, R279, R299, R303, R304, R317). -/

namespace Sys2Proof.Machine

/-! ### Registers -/

def Lathe.qv (x : Lathe) (n : Nat) : Nat := (Map.get x.q n 0).toNat
def Lathe.hv (x : Lathe) (n : Nat) : Nat := (Map.get x.h n 0).toNat
def Lathe.vv (x : Lathe) (n : Nat) : BitVec 2048 := Map.get x.v n 0
def Lathe.av (x : Lathe) (n : Nat) : Acc := Map.get x.a n emptyAcc

/-- What a slot operation comes to. -/
inductive LOut where
  | ok (s : State)
  | trap (t : TrapInfo)

/-- Notes that a register's write lands later (R278). -/
def Lathe.pends (x : Lathe) (r : LReg) (at_ : Nat) : Lathe := { x with pending := (r, at_) :: x.pending }

/-- A write to a register that lands after a latency. -/
def State.landQ (s : State) (l n v lat : Nat) : State :=
  let x := s.lathe l
  s.setLathe l (Lathe.pends { x with q := Map.set x.q n (BitVec.ofNat 32 v) } (.q n) (s.cycle + lat))
def State.landH (s : State) (l n v lat : Nat) : State :=
  let x := s.lathe l
  s.setLathe l (Lathe.pends { x with h := Map.set x.h n (BitVec.ofNat 32 v) } (.h n) (s.cycle + lat))
def State.landV (s : State) (l n v lat : Nat) : State :=
  let x := s.lathe l
  s.setLathe l (Lathe.pends { x with v := Map.set x.v n (BitVec.ofNat 2048 v) } (.v n) (s.cycle + lat))
def State.landA (s : State) (l n : Nat) (v : Acc) (lat : Nat) : State :=
  let x := s.lathe l
  s.setLathe l (Lathe.pends { x with a := Map.set x.a n v } (.a n) (s.cycle + lat))

/-- The operations whose results have landed take effect, oldest first; what has landed is no longer pending. -/
def State.settle (s : State) (l : Nat) : State :=
  let x := s.lathe l
  let landed := x.mats.filter (fun m => decide (m.landsAt ≤ s.cycle))
  s.setLathe l { x with
    a := landed.foldl (fun (a : Map Acc) m => Map.set a m.acc (applyMat m (Map.get a m.acc emptyAcc))) x.a
    mats := x.mats.filter (fun m => decide (s.cycle < m.landsAt))
    pending := x.pending.filter (fun p => decide (s.cycle < p.2))
    reads := x.reads.filter (fun p => decide (s.cycle < p.2)) }

/-- A register has a pending write; those of matrix operations apart. -/
def State.pendingIn (s : State) (l : Nat) (r : LReg) : Bool := (s.lathe l).pending.any (fun p => p.1 == r && decide (s.cycle < p.2))

/-- The matrix operations in flight on an accumulator. -/
def State.matsOn (s : State) (l a : Nat) : List MatOp := (s.lathe l).mats.filter (fun m => m.acc == a && decide (s.cycle < m.landsAt))

/-- A register has a pending write. -/
def State.busyReg (s : State) (l : Nat) (r : LReg) : Bool :=
  s.pendingIn l r || (match r with
    | .a n => !(s.matsOn l n).isEmpty
    | _ => false)

/-! ### Tiles (R135, R299, R302, R304) -/

/-- The tile that a handle register names for a Lathe. -/
def State.latheTile (s : State) (l n : Nat) : Option Nat := s.tileFor (l / 4) (s.lathe l).ctx ((s.lathe l).hv n)

/-- The tile that a handle register, as read at issue in s0, names in the state that earlier slots have left (R277). -/
def State.tileNow (s0 s : State) (l n : Nat) : Option Nat := s.tileFor (l / 4) (s0.lathe l).ctx ((s0.lathe l).hv n)

/-- Bytes of the swizzled view. -/
def State.swzBytes (s : State) (a : Nat) : Nat → List Byte
  | 0 => []
  | n + 1 => s.swzByte a :: s.swzBytes (a + 1) n

/-- The elements of a stored row, and whether a WF8 block of it is wrong (R32, R317): such a row is taken as zero. A read decodes the
whole row, whichever part of it is asked for.
DESIGN CHOICE, unsafe: assumption 74. -/
def State.tileRow (s : State) (t row : Nat) : List Nat × Bool :=
  let x := s.tile t
  let h := x.shape
  if h.rows ≤ row || !x.valid.getLsbD row then ([], false)
  else
    let bs := s.swzBytes (spAddr (t / 1024) (h.rowAt row)) h.rowLen
    if h.fmt = 14 then
      match wf8Row (2 ^ (4 + h.blog)) (h.cols + 1) bs h.cols with
      | some els => (els, false)
      | none => ([], true)
    else
      let n := elemSize h.fmt
      ((numsFrom 0 h.cols).map (fun j => leNat ((bs.drop (j * h.estr * n)).take n)), false)

/-- The size of an element as a Lathe reads it: WF8 is expanded to E4M3. -/
def imageSize (fmt : Nat) : Nat := if fmt = 14 then 1 else elemSize fmt

/-- The tile is read by a Lathe until a cycle (R304). -/
def State.readsTile (s : State) (l t until_ : Nat) : State :=
  let x := s.lathe l
  s.setLathe l { x with reads := x.reads ++ [(t, until_)] }

/-- R317: a wrong block has been read by slot k of the bundle at an address: FORMAT_FAULT falls due, and is found by a cycle.
DEDUCED, unsafe: assumption 57. -/
def State.wf8Wrong (s : State) (l k addr by_ : Nat) : State :=
  let x := s.lathe l
  let r : TrapRec := { cause := tcauseWord 6 0 0 0 k true false false, pc := addr, faddr := 0, ctx := x.ctx, lathe := true,
                       src := latheWord l, cycle := s.cycle }
  s.setLathe l { x with late := x.late ++ [(r, by_)] }

/-- The Lathe's sector of scratchpad that holds a tile row is poisoned (R336). -/
def State.rowLost (s : State) (t row : Nat) : Bool :=
  let x := s.tile t
  decide (row < x.shape.rows) && x.valid.getLsbD row && s.spPoisoned (spAddr (t / 1024) (x.shape.rowAt row)) x.shape.rowLen

/-! ### Matrix classes for the monitor (R303) -/

/-- The class of a matrix operation's operands, as far as its handles name tiles. -/
def State.matClassOf (s : State) (l hA hB : Nat) : Option MatClass :=
  match s.latheTile l hA, s.latheTile l hB with
  | some a, some b => matClass (s.tile a).shape.fmt (s.tile b).shape.fmt
  | _, _ => none

/-- R303: a matrix operation that accumulates may chain onto the pending write of its accumulator. -/
def State.chains (s : State) (l ad hA hB : Nat) (dis : Bool) : Bool :=
  !s.pendingIn l (.a ad) && !dis && (match s.matClassOf l hA hB with
    | some c => (s.matsOn l ad).all (fun m => m.form == c.form)
    | none => true)

/-- R302: less than 32 cycles since the last matrix operation. -/
def State.matSoon (s : State) (l : Nat) : Bool := ((s.lathe l).lastMat.map (fun t => decide (s.cycle < t + 32))).getD false

/-- The hazard of a matrix operation. -/
def State.matHazard (s : State) (l : Nat) (op : Instr) (ad hA hB : Nat) (dis : Bool) : Bool :=
  (slotReads op).any (s.busyReg l) || s.matSoon l || (s.busyReg l (.a ad) && !s.chains l ad hA hB dis)

/-- R278, R302, R303: the monitor's verdict on an operation. -/
def State.hazard (s : State) (l : Nat) (op : Instr) : Bool :=
  match op with
  | .mma ad hA hB _ _ dis _ => s.matHazard l op ad.toNat hA.toNat hB.toNat (dis == 1#1)
  | .mmat ad hA hB _ _ dis _ => s.matHazard l op ad.toNat hA.toNat hB.toNat (dis == 1#1)
  | _ => (slotReads op ++ slotWrites op).any (s.busyReg l)

def tHAZARD : TrapInfo := causeTrap 15

end Sys2Proof.Machine
end

