-- ==== Sys2Proof/Machine/LatheScalar.lean ====
section
/-! DEFINITION. The S slot: scalar arithmetic, branches and loops, handle-queue operations, system registers, `trapsw` (R280 to R289). Each
operation reads the state s0 of its issue and acts on s. -/

namespace Sys2Proof.Machine

/-- The second operand (R282): qb, or the immediate. -/
def scalarY (x : Lathe) (i : BitVec 1) (imm : BitVec 17) : Nat :=
  if i = 0#1 then x.qv (imm.extractLsb' 13 4).toNat else wrapInt 32 imm.toInt

/-- A scalar operation on qa and the second operand, modulo 2^32. -/
def scalarOp (qd qa : BitVec 4) (i : BitVec 1) (imm : BitVec 17) (f : Nat → Nat → Nat) (l : Nat) (s0 s : State) : LOut :=
  let x := s0.lathe l
  .ok (s.landQ l qd.toNat (f (x.qv qa.toNat) (scalarY x i imm) % 2 ^ 32) 1)

def semSadd (qd qa : BitVec 4) (i : BitVec 1) (imm : BitVec 17) : Nat → State → State → LOut := scalarOp qd qa i imm (fun a b => a + b)
def semSsub (qd qa : BitVec 4) (i : BitVec 1) (imm : BitVec 17) : Nat → State → State → LOut := scalarOp qd qa i imm (fun a b => a + (2 ^ 32 - b))
def semSmul (qd qa : BitVec 4) (i : BitVec 1) (imm : BitVec 17) : Nat → State → State → LOut := scalarOp qd qa i imm (fun a b => a * b)
def semSand (qd qa : BitVec 4) (i : BitVec 1) (imm : BitVec 17) : Nat → State → State → LOut := scalarOp qd qa i imm (fun a b => a &&& b)
def semSor (qd qa : BitVec 4) (i : BitVec 1) (imm : BitVec 17) : Nat → State → State → LOut := scalarOp qd qa i imm (fun a b => a ||| b)
def semSxor (qd qa : BitVec 4) (i : BitVec 1) (imm : BitVec 17) : Nat → State → State → LOut := scalarOp qd qa i imm (fun a b => a ^^^ b)
def semSshl (qd qa : BitVec 4) (i : BitVec 1) (imm : BitVec 17) : Nat → State → State → LOut := scalarOp qd qa i imm (fun a b => a <<< (b % 32))
def semSshr (qd qa : BitVec 4) (i : BitVec 1) (imm : BitVec 17) : Nat → State → State → LOut := scalarOp qd qa i imm (fun a b => a >>> (b % 32))

def semScmp (qd qa qb : BitVec 4) (cc : BitVec 3) (l : Nat) (s0 s : State) : LOut :=
  let x := s0.lathe l
  .ok (s.landQ l qd.toNat (b2n (intCond cc.toNat 32 true (x.qv qa.toNat) (x.qv qb.toNat))) 1)

def semSmovi (qd : BitVec 4) (imm : BitVec 22) (l : Nat) (_ s : State) : LOut := .ok (s.landQ l qd.toNat (wrapInt 32 imm.toInt) 1)

/-- A word of the Lathe's own constant window (R86, R283). -/
def semSmovk (qd : BitVec 4) (index : BitVec 8) (l : Nat) (s0 s : State) : LOut :=
  .ok (s.landQ l qd.toNat (leNat (s0.spBytes (spAddr (l / 4) (0x400 * (16 + l % 4) + 4 * index.toNat)) 4)) 2)

/-! ### Sequencing (R280, R281, R284): what the bundle does to the program counter -/

/-- A taken branch of a bundle: its displacement. -/
def takenBranch (x : Lathe) (op : Instr) : Option (BitVec 16) :=
  match op with
  | .sb cond qa disp =>
    let z : Bool := x.qv qa.toNat == 0
    if cond = 0#2 ∨ (cond = 1#2 ∧ z) ∨ (cond = 2#2 ∧ !z) then some disp else none
  | _ => none

/-- The count of a `loop`. -/
def loopCount (x : Lathe) (op : Instr) : Option Nat :=
  match op with
  | .loop i qa imm => some (if i = 1#1 then imm.toNat else x.qv qa.toNat)
  | _ => none

/-- `sb` acts on the sequencer, after the other slots. -/
def semSb (_ : BitVec 2) (_ : BitVec 4) (_ : BitVec 16) (_ : Nat) (_ s : State) : LOut := .ok s

/-- `loop` acts on the sequencer; a fifth level traps. -/
def semLoop (i : BitVec 1) (qa : BitVec 4) (imm : BitVec 16) (l : Nat) (s0 s : State) : LOut :=
  let x := s0.lathe l
  if loopCount x (.loop i qa imm) ≠ some 0 ∧ 4 ≤ x.loops.length then .trap tILLEGAL else .ok s

/-! ### Handle queues (R89, R285, R286) -/

/-- Bits [63:32] of an entry (Table 17-2). -/
def HqEntry.flags (e : HqEntry) : Nat := b2n e.eos * 2 ^ 31 + b2n e.chime * 2 ^ 30 + b2n e.full * 2 ^ 29 + e.vcnt

/-- Table 5-4: an end-of-stream token has been dequeued by a Lathe of a parked launch. -/
def State.drainLaunch (s : State) (id : Option Nat) : State :=
  match id with
  | none => s
  | some n =>
    match Map.find? s.launches n with
    | some la => if la.st = .parked then { s with launches := Map.set s.launches n { la with st := .draining } } else s
    | none => s

/-- The head entry is dequeued. A `qwait` after the token releases the Lathe and is dealt with before (R285). -/
def semQwait (hd : BitVec 3) (qd : BitVec 4) (l : Nat) (_ s : State) : LOut :=
  let x := s.lathe l
  match x.hq with
  | [] => .ok s
  | e :: rest =>
    let s1 := State.lapse (s.setLathe l { x with hq := rest, relPending := x.relPending || e.eos }) x.ctx
    let s2 := if e.eos then s1.drainLaunch x.bound else s1.entryMoves l e .queued .consumed
    let s3 := s2.hqRefill l ((s2.lathe l).hqWait.length)
    .ok ((s3.landH l hd.toNat e.handle.toNat 1).landQ l qd.toNat e.flags 1)

/-- The Lathe of the cluster that a post names. -/
def postTarget (l : Nat) (n : BitVec 2) : Nat := l / 4 * 4 + n.toNat

/-- The target is bound to the issuing Lathe's launch. -/
def State.sameLaunch (s : State) (l d : Nat) : Bool := (s.lathe l).bound.isSome && (s.lathe d).bound == (s.lathe l).bound

/-- The target of a post has been released while the bundle stalled, for whatever reason (R276, R286).
DEDUCED, unsafe: assumption 96. -/
def State.postOrphaned (s : State) (l d : Nat) : Bool := !s.sameLaunch l d && (s.lathe l).gone.contains d

def semQpostLathe (n : BitVec 2) (h : BitVec 3) (l : Nat) (s0 s : State) : LOut :=
  let d := postTarget l n
  let gone := s.postOrphaned l d
  if !s.sameLaunch l d && !gone then .trap tILLEGAL
  else
    match s0.tileNow s l h.toNat with
    | none => .trap tTILE_STALE
    | some t =>
      if (s.tile t).st ≠ .consumed then .trap tTILE_STATE
      else if gone then .ok ((s.hqDone d (.lathe l)).freeTile t)
      else .ok ((s.queueTile t d).hqDone d (.lathe l))

def semQeosLathe (n : BitVec 2) (l : Nat) (_s0 s : State) : LOut :=
  let d := postTarget l n
  if s.postOrphaned l d then .ok (s.hqDone d (.lathe l))
  else if !s.sameLaunch l d then .trap tILLEGAL
  else .ok ((s.hqPush d { eos := true }).hqDone d (.lathe l))

/-- R287. -/
def semTretLathe (h : BitVec 3) (l : Nat) (s0 s : State) : LOut :=
  match s0.tileNow s l h.toNat with
  | none => .trap tTILE_STALE
  | some t => if (s.tile t).st = .held ∨ (s.tile t).st = .queued then .trap tTILE_STATE else .ok (s.freeTile t)

/-! ### System registers (R272, R288) -/

/-- The registers that read as zero at a Lathe and whose `setk` is ignored. -/
def kLatheZero (k : Nat) : Bool := [0, 2, 7, 8, 11, 14, 32, 33, 34, 35].contains k

/-- System register k as a Lathe reads it. -/
def State.kLathe (s : State) (l k : Nat) : Nat :=
  let x := s.lathe l
  let tcls := match x.bound with
    | some id => ((Map.find? s.launches id).map (fun a => a.r.tcls)).getD false
    | none => false
  if kLatheZero k then 0
  else match k with
    | 1 => b2n tcls * 2 ^ 7 + x.ctx
    | 3 => 2 ^ 16 + latheWord l
    | 12 => b2n (decide ((s.ctx x.ctx).st = .checkpointed)) * 2
    | 24 => x.fifo.stall
    | 25 => x.fifo.entries.length
    | _ => s.kShared x.ctx (l / 4) k

def semGetkLathe (qd : BitVec 4) (k : BitVec 6) (l : Nat) (s0 s : State) : LOut :=
  if kAssigned k.toNat then .ok (s.landQ l qd.toNat (s0.kLathe l k.toNat) 1) else .trap tILLEGAL

def semSetkLathe (qa : BitVec 4) (k : BitVec 6) (l : Nat) (s0 s : State) : LOut :=
  let n := k.toNat
  let x := s0.lathe l
  let v := x.qv qa.toNat
  if !kAssigned n || (!kLatheZero n && (kReadOnly n || s0.kBadValue n v)) then .trap tILLEGAL
  else if kLatheZero n then .ok s
  else if n = 24 then
    let y := s.lathe l
    .ok (s.setLathe l { y with fifo := { y.fifo with stall := clearBits y.fifo.stall v } })
  else .ok (s.kWriteShared x.ctx (l / 4) n v)

/-- `trapsw` traps when every other slot has acted (R289). -/
def semTrapsw (_ : BitVec 12) (_ : Nat) (_ s : State) : LOut := .ok s

/-- The code of a bundle's `trapsw`. -/
def trapswCode (ops : List (Nat × Instr)) : Option Nat :=
  (ops.filterMap (fun p => match p.2 with
    | .trapsw code => some code.toNat
    | _ => none)).head?

def semSnop (_ : Nat) (_ s : State) : LOut := .ok s

end Sys2Proof.Machine
end

