-- ==== Sys2Proof/Machine/LatheVector.lean ====
section
/-! DEFINITION. The V slots and the special functions of the F slot (R290 to R298). -/

namespace Sys2Proof.Machine

/-! ### Lanes (Table 14-8) -/

def laneCount (ty : Nat) : Nat := 2048 / laneWidth ty
def isFloatLane (ty : Nat) : Bool := ty == 2 || ty == 5 || ty == 6
def isSignedLane (ty : Nat) : Bool := ty == 0 || ty == 3

/-- The format of a floating lane. -/
def laneFmt (ty : Nat) : FFmt :=
  match ty with
  | 5 => bf16
  | 6 => fp16
  | _ => fp32

def lanesOf (ty : Nat) (v : BitVec 2048) : List Nat := unpackElems (laneWidth ty) (laneCount ty) v.toNat
def packLanes (ty : Nat) (l : List Nat) : Nat := packElems (laneWidth ty) l

/-- An integer lane's value. -/
def laneInt (ty v : Nat) : Int := if isSignedLane ty then sextInt (laneWidth ty) v else (v : Int)

/-- The range of an integer lane type. -/
def laneLo (ty : Nat) : Int := if isSignedLane ty then -(2 ^ (laneWidth ty - 1) : Nat) else 0
def laneHi (ty : Nat) : Int := if isSignedLane ty then (2 ^ (laneWidth ty - 1) : Nat) - 1 else (2 ^ laneWidth ty : Nat) - 1

/-- A three-operand lane operation: va, vb and the old vd. -/
def laneOp (vd va vb : BitVec 5) (ty lat : Nat) (f : Nat → Nat → Nat → Nat) (l : Nat) (s0 s : State) : LOut :=
  let x := s0.lathe l
  let r := fun (n : BitVec 5) => lanesOf ty (x.vv n.toNat)
  .ok (s.landV l vd.toNat (packLanes ty (((r va).zip ((r vb).zip (r vd))).map (fun p => f p.1 p.2.1 p.2.2))) lat)

/-- An operation by lane type: of integers modulo 2^w, or of a floating format. -/
def byType (ty : Nat) (int : Nat → Nat → Nat → Nat) (flt : FFmt → Nat → Nat → Nat → Nat) (a b d : Nat) : Nat :=
  if isFloatLane ty then flt (laneFmt ty) a b d else int a b d % 2 ^ laneWidth ty

def semVadd (vd va vb : BitVec 5) (ty : BitVec 3) : Nat → State → State → LOut :=
  laneOp vd va vb ty.toNat 3 (byType ty.toNat (fun a b _ => a + b) (fun f a b _ => faddCode f a b))
def semVsub (vd va vb : BitVec 5) (ty : BitVec 3) : Nat → State → State → LOut :=
  laneOp vd va vb ty.toNat 3 (byType ty.toNat (fun a b _ => a + (2 ^ laneWidth ty.toNat - b)) (fun f a b _ => fsubCode f a b))
def semVmul (vd va vb : BitVec 5) (ty : BitVec 3) : Nat → State → State → LOut :=
  laneOp vd va vb ty.toNat 4 (byType ty.toNat (fun a b _ => a * b) (fun f a b _ => fmulCode f a b))
def semVfma (vd va vb : BitVec 5) (ty : BitVec 3) : Nat → State → State → LOut :=
  laneOp vd va vb ty.toNat 4 (byType ty.toNat (fun a b d => a * b + d) (fun f a b d => fmaCode f a b d))

/-- The greater, or the lesser, lane (R291). -/
def laneMax (ty a b : Nat) : Nat := if isFloatLane ty then fmaxCode (laneFmt ty) a b else if laneInt ty a < laneInt ty b then b else a
def laneMin (ty a b : Nat) : Nat := if isFloatLane ty then fminCode (laneFmt ty) a b else if laneInt ty b < laneInt ty a then b else a

def semVmax (vd va vb : BitVec 5) (ty : BitVec 3) : Nat → State → State → LOut :=
  laneOp vd va vb ty.toNat 3 (fun a b _ => laneMax ty.toNat a b)
def semVmin (vd va vb : BitVec 5) (ty : BitVec 3) : Nat → State → State → LOut :=
  laneOp vd va vb ty.toNat 3 (fun a b _ => laneMin ty.toNat a b)

def semVand (vd va vb : BitVec 5) (ty : BitVec 3) : Nat → State → State → LOut := laneOp vd va vb ty.toNat 3 (fun a b _ => a &&& b)
def semVor (vd va vb : BitVec 5) (ty : BitVec 3) : Nat → State → State → LOut := laneOp vd va vb ty.toNat 3 (fun a b _ => a ||| b)
def semVxor (vd va vb : BitVec 5) (ty : BitVec 3) : Nat → State → State → LOut := laneOp vd va vb ty.toNat 3 (fun a b _ => a ^^^ b)

/-- R292: shift counts modulo w. -/
def laneShl (ty a b : Nat) : Nat := (a <<< (b % laneWidth ty)) % 2 ^ laneWidth ty
def laneShr (ty a b : Nat) : Nat := wrapInt (laneWidth ty) (laneInt ty a / (2 ^ (b % laneWidth ty) : Nat))

def semVshl (vd va vb : BitVec 5) (ty : BitVec 3) : Nat → State → State → LOut :=
  laneOp vd va vb ty.toNat 3 (fun a b _ => laneShl ty.toNat a b)
def semVshr (vd va vb : BitVec 5) (ty : BitVec 3) : Nat → State → State → LOut :=
  laneOp vd va vb ty.toNat 3 (fun a b _ => laneShr ty.toNat a b)

/-- R293: a lane of type st converted to type dt. -/
def cvtLane (st dt v : Nat) : Nat :=
  if isFloatLane st then
    if isFloatLane dt then fcvtCode (laneFmt st) (laneFmt dt) v
    else wrapInt (laneWidth dt) (fvToInt (laneLo dt) (laneHi dt) (toFV (laneFmt st) v))
  else if isFloatLane dt then ofFV (laneFmt dt) (intToFV (laneInt st v))
  else wrapInt (laneWidth dt) (clampInt (laneLo dt) (laneHi dt) (laneInt st v))

def semVcvt (vd va : BitVec 5) (ty st : BitVec 3) (l : Nat) (s0 s : State) : LOut :=
  let x := s0.lathe l
  let src := (cvtRegs va st ty).flatMap (fun r => match r with
    | .v n => lanesOf st.toNat (x.vv n)
    | _ => [])
  let out := src.map (cvtLane st.toNat ty.toNat)
  if (cvtRegs vd ty st).length = 2 then
    .ok ((s.landV l vd.toNat (packLanes ty.toNat (out.take 64)) 3).landV l (vd.toNat + 1) (packLanes ty.toNat (out.drop 64)) 3)
  else .ok (s.landV l vd.toNat (packLanes ty.toNat out) 3)

def semVbcast (vd : BitVec 5) (qa : BitVec 4) (ty : BitVec 3) (l : Nat) (s0 s : State) : LOut :=
  let v := (s0.lathe l).qv qa.toNat
  .ok (s.landV l vd.toNat (packLanes ty.toNat (List.replicate (laneCount ty.toNat) v)) 3)

/-- R295. -/
def reduceLanes (ty op : Nat) (ls : List Nat) : Nat :=
  match op with
  | 0 =>
    if isFloatLane ty then ofFV fp32 (FV.sum (ls.map (toFV (laneFmt ty))))
    else wrapInt 32 (ls.foldl (fun a v => a + laneInt ty v) 0)
  | 1 => (ls.drop 1).foldl (laneMax ty) (ls.headD 0)
  | _ => (ls.drop 1).foldl (laneMin ty) (ls.headD 0)

def semVred (qd : BitVec 4) (va : BitVec 5) (ty : BitVec 3) (op : BitVec 2) (l : Nat) (s0 s : State) : LOut :=
  .ok (s.landQ l qd.toNat (reduceLanes ty.toNat op.toNat (lanesOf ty.toNat ((s0.lathe l).vv va.toNat))) 6)

def semVsel (vd va vb : BitVec 5) (ty : BitVec 3) : Nat → State → State → LOut :=
  laneOp vd va vb ty.toNat 3 (fun a b d => if d = 0 then b else a)

/-- R294. -/
def laneCond (ty cc a b : Nat) : Bool :=
  if isFloatLane ty then floatCond cc (laneFmt ty) a b else intCond cc (laneWidth ty) (isSignedLane ty) a b

def semVcmp (vd va vb : BitVec 5) (ty cc : BitVec 3) : Nat → State → State → LOut :=
  laneOp vd va vb ty.toNat 3 (fun a b _ => if laneCond ty.toNat cc.toNat a b then 2 ^ laneWidth ty.toNat - 1 else 0)

/-- R296: the sums of products of pairs. -/
def pairSums (ty : Nat) : List Nat → List Nat → List Int
  | a0 :: a1 :: a, b0 :: b1 :: b => (laneInt ty a0 * laneInt ty b0 + laneInt ty a1 * laneInt ty b1) :: pairSums ty a b
  | _, _ => []

def semVmac16 (vd va vb : BitVec 5) (ty : BitVec 3) (l : Nat) (s0 s : State) : LOut :=
  let x := s0.lathe l
  let sums := pairSums ty.toNat (lanesOf ty.toNat (x.vv va.toNat)) (lanesOf ty.toNat (x.vv vb.toNat))
  .ok (s.landV l vd.toNat (packElems 32 (((lanesOf 0 (x.vv vd.toNat)).zip sums).map (fun p => wrapInt 32 ((p.1 : Int) + p.2)))) 4)

/-- R297: the lanes of a part of an accumulator. -/
def Acc.part (a : Acc) (part row : Nat) : Nat :=
  match part with
  | 0 => if a.form = .fp64 ∧ 32 ≤ row then 0 else (Map.get a.rows row 0).toNat
  | 1 => packElems 32 ((numsFrom 0 64).map (fun i => (Map.get a.m i (BitVec.ofNat 32 ninf32)).toNat))
  | 2 => packElems 32 ((numsFrom 0 64).map (fun i => (Map.get a.l i 0).toNat))
  | _ => packElems 32 ((numsFrom 0 64).map (fun i => b2n (a.nan.getLsbD i)))

/-- Numbers 0, 1, … with values. -/
def indexed (l : List Nat) : Map Word32 := ((numsFrom 0 l.length).zip l).map (fun p => (p.1, BitVec.ofNat 32 p.2))

/-- R297: a part replaced. -/
def Acc.setPart (a : Acc) (part row : Nat) (v : BitVec 2048) : Acc :=
  match part with
  | 0 => if a.form = .fp64 ∧ 32 ≤ row then a else { a with rows := Map.set a.rows row v }
  | 1 => { a with m := indexed (lanesOf 0 v) }
  | 2 => { a with l := indexed (lanesOf 0 v) }
  | _ => { a with nan := BitVec.ofNat 64 (packElems 1 (lanesOf 0 v)) }

def semVrow (vd : BitVec 5) (acc ty : BitVec 3) (part : BitVec 2) (row : BitVec 6) (l : Nat) (s0 s : State) : LOut :=
  let _ := ty
  .ok (s.landV l vd.toNat (((s0.lathe l).av acc.toNat).part part.toNat row.toNat) 4)

def semVwacc (acc : BitVec 3) (va : BitVec 5) (ty : BitVec 3) (part : BitVec 2) (row : BitVec 6) (l : Nat) (s0 s : State) : LOut :=
  let _ := ty
  let x := s0.lathe l
  .ok (s.landA l acc.toNat ((x.av acc.toNat).setPart part.toNat row.toNat (x.vv va.toNat)) 4)

def semVnop (_ : Nat) (_ s : State) : LOut := .ok s

/-! ### Special functions (R298) -/

/-- A function of every FP32 lane. -/
def laneFun (vd va : BitVec 5) (f : Nat → Nat) (l : Nat) (s0 s : State) : LOut :=
  .ok (s.landV l vd.toNat (packElems 32 ((lanesOf 2 ((s0.lathe l).vv va.toNat)).map f)) 8)

def semFexp2 (vd va : BitVec 5) : Nat → State → State → LOut := laneFun vd va exp2t
def semFlog2 (vd va : BitVec 5) : Nat → State → State → LOut := laneFun vd va flog2
def semFrcp (vd va : BitVec 5) : Nat → State → State → LOut := laneFun vd va frcp
def semFrsqrt (vd va : BitVec 5) : Nat → State → State → LOut := laneFun vd va frsqrt
def semFsin (vd va : BitVec 5) : Nat → State → State → LOut := laneFun vd va fsin
def semFcos (vd va : BitVec 5) : Nat → State → State → LOut := laneFun vd va fcos
def semFnop (_ : Nat) (_ s : State) : LOut := .ok s

end Sys2Proof.Machine
end

