-- ==== Sys2Proof/Machine/LatheMatrix.lean ====
section
/-! DEFINITION. The M and E slots and the softmax operations of the F slot (R299 to R311, R317). Each operation reads the state s0 of its
issue and acts on s. -/

namespace Sys2Proof.Machine

/-! ### The bundle in issue -/

/-- The number of the slot that holds an operation, in the bundle in issue. -/
def Lathe.slotOf (x : Lathe) (op : Instr) : Nat :=
  match x.held with
  | none => slotNoOf op
  | some b => ((b.ops.find? (fun p => p.2 == op)).map (·.1)).getD (slotNoOf op)

/-- DATA_FAULT for a poisoned sector that a Lathe reads (R336). -/
def tPOISON : TrapInfo := { cause := 4, reason := 6 }

/-! ### Matrix operations (R299 to R304) -/

/-- n elements of a row from element e on; +0 beyond its end. -/
def window (row : List Nat) (e n : Nat) : List Nat := (numsFrom e n).map (fun i => row.getD i 0)

/-- Rows lo to lo + n − 1 of a tile as a matrix operation reads them: rows above 127 read +0 (R299). -/
def State.tileRows (s : State) (t lo n : Nat) : List (List Nat × Bool) :=
  (numsFrom lo n).map (fun r => if 127 < r then ([], false) else s.tileRow t r)

/-- Bit j of the mask: row lo + j of tile B is below 128, below rows, and valid (R301). -/
def State.rowMask (s : State) (t lo : Nat) : Nat :=
  let x := s.tile t
  (numsFrom 0 64).foldl (fun v j => v + b2n (decide (lo + j < 128) && decide (lo + j < x.shape.rows) && x.valid.getLsbD (lo + j)) * 2 ^ j) 0

/-- The form that an accumulator has once its operations in flight have landed. -/
def State.formAfter (s : State) (l a : Nat) : AccForm :=
  match (s.matsOn l a).getLast? with
  | some m => m.form
  | none => ((s.lathe l).av a).form

/-- The columns of B: of rows of K by N, column cB0 + j; of rows of N by K, row rowB0 + j (R299). -/
def matColumns (transposed : Bool) (rows : List (List Nat)) (c0 n k : Nat) : List (List Nat) :=
  if transposed then rows.map (fun r => window r c0 k)
  else (numsFrom c0 n).map (fun j => rows.map (fun r => r.getD j 0))

/-- The fields of an offset register (R299). -/
structure MatOffsets where
  rowA : Nat
  rowB : Nat
  kA : Nat
  cB : Nat

def matOffsets (q : Nat) : MatOffsets := { rowA := bitsOf q 6 0, rowB := bitsOf q 13 7, kA := bitsOf q 22 14, cB := bitsOf q 31 23 }

/-- A row of a tile that the operation reads is poisoned. -/
def State.rowsLost (s : State) (t lo n : Nat) : Bool := (numsFrom lo n).any (fun r => decide (r < 128) && s.rowLost t r)

/-- The matrix operation issues: operands are taken, its write falls due at t + 48. -/
def State.startMat (s : State) (l slotNo addr : Nat) (op : MatOp) (a b : Nat) (bad : Bool) : State :=
  let x := s.lathe l
  let s1 := s.setLathe l { x with mats := x.mats ++ [op], lastMat := some s.cycle }
  let s2 := (s1.readsTile l a (s.cycle + 32)).readsTile l b (s.cycle + 32)
  if bad then s2.wf8Wrong l slotNo addr (s.cycle + 31) else s2

/-- `mma` and `mmat`: the checks of R302 and R301, then the operation. -/
def matOp (op : Instr) (transposed : Bool) (ad hA hB : BitVec 3) (na nb dis : BitVec 1) (qo : BitVec 4) (l : Nat) (s0 s : State) : LOut :=
  let x := s0.lathe l
  match s0.tileNow s l hA.toNat, s0.tileNow s l hB.toNat with
  | some a, some b =>
    if (s.tile a).st = .open_ ∨ (s.tile b).st = .open_ then .trap tTILE_STATE
    else
      let fa := (s.tile a).shape.fmt
      let fb := (s.tile b).shape.fmt
      match matClass fa fb with
      | none => .trap tFORMAT_FAULT
      | some c =>
        let d : Bool := dis == 1#1
        if !d ∧ s0.formAfter l ad.toNat ≠ c.form then .trap tILLEGAL
        else
          let o := matOffsets (x.qv qo.toNat)
          let nB := if transposed then c.m else c.k
          if s.rowsLost a o.rowA c.m || s.rowsLost b o.rowB nB then .trap tPOISON
          else
            let rowsA := s.tileRows a o.rowA c.m
            let rowsB := s.tileRows b o.rowB nB
            let mask := (if transposed then s.rowMask b o.rowB else 2 ^ 64 - 1) % (if c.form = .fp64 then 2 ^ 32 else 2 ^ 64)
            let m : MatOp :=
              { acc := ad.toNat, start := s.cycle, landsAt := s.cycle + 48, dis := d, form := c.form, fmtA := fa, fmtB := fb,
                a := rowsA.map (fun r => window r.1 o.kA c.k), b := matColumns transposed (rowsB.map (·.1)) o.cB c.m c.k,
                na := na == 1#1, nb := nb == 1#1, cv := BitVec.ofNat 64 mask }
            .ok (s.startMat l (x.slotOf op) x.pc.toNat m a b (rowsA.any (·.2) || rowsB.any (·.2)))
  | _, _ => .trap tTILE_STALE

def semMma (ad hA hB : BitVec 3) (na nb dis : BitVec 1) (qo : BitVec 4) : Nat → State → State → LOut :=
  matOp (.mma ad hA hB na nb dis qo) false ad hA hB na nb dis qo
def semMmat (ad hA hB : BitVec 3) (na nb dis : BitVec 1) (qo : BitVec 4) : Nat → State → State → LOut :=
  matOp (.mmat ad hA hB na nb dis qo) true ad hA hB na nb dis qo

def semMnop (_ : Nat) (_ s : State) : LOut := .ok s

/-! ### `xchg` (R308) -/

/-- The source register of a bundle's `xchg`. -/
def xchgSource (b : Bundle) : Option Nat :=
  (b.ops.filterMap (fun p => match p.2 with
    | .xchg _ va => some va.toNat
    | _ => none)).head?

/-- Slice i of the source that Lathe l exchanges. -/
def State.xchgSlice (s0 : State) (l i : Nat) : Nat :=
  let x := s0.lathe l
  match x.held.bind xchgSource with
  | some va => bitsOf (x.vv va).toNat (512 * i + 511) (512 * i)
  | none => 0

/-- Slice n of vd is slice l mod 4 of the va of the cluster's Lathe n. -/
def semXchg (vd _va : BitVec 5) (l : Nat) (s0 s : State) : LOut :=
  .ok (s.landV l vd.toNat (packElems 512 ((numsFrom (l / 4 * 4) 4).map (fun n => s0.xchgSlice n (l % 4)))) 16)

/-! ### `escl` (R305, R306) -/

/-- The exponent reaches the matrix operation that the Lathe issued 12 cycles before, if there is one. -/
def State.scaleMat (s : State) (l : Nat) (e : Int) : State :=
  let x := s.lathe l
  s.setLathe l { x with mats := x.mats.map (fun m => if m.start + 12 = s.cycle then { m with e := e, escaled := true } else m) }

/-- A matrix operation was issued 12 cycles before. -/
def State.hasScale (s : State) (l : Nat) : Bool := (s.lathe l).mats.any (fun m => m.start + 12 == s.cycle)

/-- The ORPHAN_SCALE bit of a Lathe is set in SCALEST. -/
def State.orphanScale (s : State) (l : Nat) : State :=
  let c := s.cluster (l / 4)
  let ctx := (s.lathe l).ctx
  s.setCluster (l / 4) { c with scalest := Map.set c.scalest ctx (Map.get c.scalest ctx 0 ||| 2 ^ (l % 4)) }

def semEscl (e : BitVec 8) (l : Nat) (s0 s : State) : LOut :=
  if (s0.lathe l).eDone then .ok s
  else if s0.hasScale l then .ok (s.scaleMat l e.toInt)
  else .ok (s.orphanScale l)

def semEnop (_ : Nat) (_ s : State) : LOut := .ok s

/-! ### Softmax operations (R309 to R311) -/

/-- A `tseal` of the same tile stands in a later slot of the bundle in issue: it precedes a chime of the cycle (R316). -/
def Lathe.sealsLater (x : Lathe) (h : Nat) : Bool :=
  ((x.held.map (·.ops)).getD []).any (fun p => match p.2 with
    | .tseal g => x.hv g.toNat == h
    | _ => false)

/-- A tile that a Lathe's port write of this cycle finds closed: it is sealed, or its chime seals it in this cycle and no `tseal` of the
same bundle comes between (R132, R316). -/
def State.closedTo (s : State) (l h : Nat) (x : Tile) : Bool :=
  x.st != .open_ || (x.sealsNow s.cycle && !(s.lathe l).sealsLater h)

/-- R310: the code with which the port refuses the rows of P; 0 for acceptance. -/
def State.smxCode (s : State) (l ctx h : Nat) : Nat :=
  match s.tileFor (l / 4) ctx h with
  | none => 1
  | some t =>
    let x := s.tile t
    if x.shape.fmt ≠ 10 ∨ x.shape.rows < 64 ∨ x.shape.cols < 64 then 2
    else if s.closedTo l h x then 3
    else if x.valid.extractLsb' 0 64 ≠ 0#64 then 4
    else 0

/-- Elements of a row at their places: element j at j·estr·size (R125). -/
def rowPieces (h : Shape) (j0 : Nat) (els : List (List Byte)) : List (Nat × List Byte) :=
  ((numsFrom j0 els.length).zip els).map (fun p => (p.1 * h.estr * elemSize h.fmt, p.2))

/-- The 64 rows of P are written and become valid together; a post of the tile waits until t + 40.
DEDUCED, unsafe: assumption 58. -/
def State.smxRows (s : State) (h : Nat) (p : List (List Nat)) : State :=
  let t := handleKey h
  let s1 := s.setTile t { s.tile t with postAfter := s.cycle + 40 }
  let s2 := ((numsFrom 0 64).zip p).foldl (fun u r =>
    u.rowWrite t r.1 true (rowPieces (u.tile t).shape 0 (r.2.map (leBytes 2)))) s1
  s2.rowsFinal t (numsFrom 0 64)

/-- The softmax step of every row: the new state of a_o and the rows of P. -/
def smxRowsOf (o sc : Acc) (scale : Nat) : Acc × List (List Nat) :=
  (numsFrom 0 64).foldl (fun (r : Acc × List (List Nat)) i =>
    let q := softmaxStep (o.rowState i) (sc.rowElems i) ((numsFrom 0 64).map (fun j => sc.cv.getLsbD j)) scale
    (r.1.setRowState i q.1, r.2 ++ [q.2])) (o, [])

def semSmx (ao asc : BitVec 3) (qs : BitVec 4) (hout : BitVec 3) (l : Nat) (s0 s : State) : LOut :=
  let x := s0.lathe l
  let o := x.av ao.toNat
  let sc := x.av asc.toNat
  let h := x.hv hout.toNat
  if o.form ≠ .fp32 ∨ sc.form ≠ .fp32 then .trap tILLEGAL
  else
    match s.smxCode l x.ctx h with
    | 0 =>
      let r := smxRowsOf o sc (x.qv qs.toNat)
      .ok ((s.smxRows h r.2).landA l ao.toNat r.1 40)
    | code => .trap (portTrap code)

/-- A function of the state of every row. -/
def Acc.mapRows (x : Acc) (f : Nat → RowState → RowState) : Acc :=
  (numsFrom 0 64).foldl (fun (a : Acc) i => a.setRowState i (f i (a.rowState i))) x

def semSmxm (ad ae : BitVec 3) (l : Nat) (s0 s : State) : LOut :=
  let d := (s0.lathe l).av ad.toNat
  let e := (s0.lathe l).av ae.toNat
  if d.form ≠ .fp32 ∨ e.form ≠ .fp32 then .trap tILLEGAL
  else .ok (s.landA l ad.toNat (d.mapRows (fun i r => softmaxMerge r (e.rowState i))) 40)

def semSmxf (a : BitVec 3) (l : Nat) (s0 s : State) : LOut :=
  let d := (s0.lathe l).av a.toNat
  if d.form ≠ .fp32 then .trap tILLEGAL else .ok (s.landA l a.toNat (d.mapRows (fun _ r => softmaxFinal r)) 24)

def semSmxz (a : BitVec 3) (l : Nat) (_ s : State) : LOut := .ok (s.landA l a.toNat emptyAcc 4)

end Sys2Proof.Machine
end

