-- ==== Sys2Proof/Machine/LatheTile.lean ====
section
/-! DEFINITION. The T slots (R213, R312 to R317). Each operation reads the state s0 of its issue and acts on s. -/

namespace Sys2Proof.Machine

/-! ### `tld` (R312) -/

/-- Bytes 256·chunk on of an element image, 256 of them; zero beyond its end. -/
def chunkOf (image : List Byte) (chunk : Nat) : List Byte :=
  let c := (image.drop (256 * chunk)).take 256
  c ++ List.replicate (256 - c.length) 0

def semTld (vd : BitVec 5) (h : BitVec 3) (row : BitVec 7) (chunk : BitVec 5) (l : Nat) (s0 s : State) : LOut :=
  let x := s0.lathe l
  match s0.tileNow s l h.toNat with
  | none => .trap tTILE_STALE
  | some t =>
    if (s.tile t).st = .open_ then .trap tTILE_STATE
    else if s.rowLost t row.toNat then .trap tPOISON
    else
      let fmt := (s.tile t).shape.fmt
      let lat := if fmt = 14 then 12 else 6
      let r := s.tileRow t row.toNat
      let image := r.1.flatMap (leBytes (imageSize fmt))
      let s1 := (s.landV l vd.toNat (leNat (chunkOf image chunk.toNat)) lat).readsTile l t (s.cycle + lat)
      .ok (if r.2 then s1.wf8Wrong l (x.slotOf (.tld vd h row chunk)) x.pc.toNat (s.cycle + lat - 1) else s1)

/-! ### `tst` (R313) -/

/-- The code with which the port refuses a chunk of a row (Table 9-2). -/
def State.tstCode (s : State) (l ctx h row chunk : Nat) : Nat :=
  match s.tileFor (l / 4) ctx h with
  | none => 1
  | some t =>
    let x := s.tile t
    if x.shape.fmt = 14 ∨ x.shape.rows ≤ row ∨ x.shape.cols * elemSize x.shape.fmt ≤ 256 * chunk then 2
    else if s.closedTo l h x then 3
    else if x.valid.getLsbD row then 4
    else 0

/-- The elements of a chunk of the image, as bytes. -/
def chunkElems (h : Shape) (chunk : Nat) (bs : List Byte) : List (List Byte) :=
  let n := elemSize h.fmt
  (pieces n (256 / n) bs).take (h.cols - 256 * chunk / n)

def semTstLathe (va : BitVec 5) (h : BitVec 3) (row : BitVec 7) (chunk : BitVec 5) (fin : BitVec 1) (l : Nat) (s0 s : State) : LOut :=
  let x := s0.lathe l
  let hv := x.hv h.toNat
  match s.tstCode l x.ctx hv row.toNat chunk.toNat with
  | 0 =>
    let t := handleKey hv
    let g := (s.tile t).shape
    let els := chunkElems g chunk.toNat (leBytes 256 (x.vv va.toNat).toNat)
    let s2 := s.rowWrite t row.toNat true (rowPieces g (256 * chunk.toNat / elemSize g.fmt) els)
    .ok (if fin = 1#1 then s2.rowsFinal t [row.toNat] else s2)
  | code => .trap (portTrap code)

/-! ### `tmask` and `tseal` (R314, R316) -/

def semTmask (qd : BitVec 4) (h : BitVec 3) (sel : BitVec 2) (l : Nat) (s0 s : State) : LOut :=
  match s0.tileNow s l h.toNat with
  | none => .trap tTILE_STALE
  | some t => .ok (s.landQ l qd.toNat ((s.tile t).valid.extractLsb' (32 * sel.toNat) 32).toNat 2)

def semTseal (h : BitVec 3) (l : Nat) (s0 s : State) : LOut :=
  match s0.tileNow s l h.toNat with
  | none => .trap tTILE_STALE
  | some t => if (s.tile t).st = .open_ then .ok ((s.lapse (s0.lathe l).ctx).sealTile t false) else .ok s

/-! ### `tout` (R213, R315) -/

/-- Where a `tout` writes. -/
inductive ToutTo where
  | at_ (pa : Nat)
  | trap (t : TrapInfo)
  | miss

/-- The global address that a `tout` names: bits [55:0] of qb·2^32 + qa.
DEDUCED, unsafe: assumption 56. -/
def toutAddr (x : Lathe) (qa qb : BitVec 4) : Nat := (x.qv qb.toNat * 2 ^ 32 + x.qv qa.toNat) % 2 ^ 56

/-- The checks of a `tout`, in the order of R315.
DEDUCED, unsafe: assumption 56. -/
def State.toutTo (s : State) (l va : Nat) : ToutTo :=
  let bad := fun (r : Nat) => ToutTo.trap (tDATA_FAULT (BitVec.ofNat 64 va) r 0)
  if va % 256 ≠ 0 then .trap (tALIGN_FAULT (BitVec.ofNat 64 va))
  else match windowOf va with
    | .scratch _ => bad 1
    | .priv _ => bad 1
    | .none => bad 1
    | .global =>
      match s.look (l / 4) (s.lathe l).ctx va .write true false with
      | .ok e pa => if e.tgt = 0 then .at_ pa else bad 5
      | .fault r => bad r
      | _ => .miss

def semTout (va : BitVec 5) (qa qb : BitVec 4) (l : Nat) (s0 s : State) : LOut :=
  let x := s0.lathe l
  match s0.toutTo l (toutAddr x qa qb) with
  | .trap t => .trap t
  | .miss => .ok s
  | .at_ pa => .ok (s.hbmWrite pa (leBytes 256 (x.vv va.toNat).toNat))

/-- The request that a vector holds: word i is lanes 2i and 2i + 1. -/
def State.latheRequest (s : State) (l : Nat) (v : BitVec 2048) : Request :=
  let x := s.lathe l
  let tcls := match x.bound with
    | some id => ((Map.find? s.launches id).map (fun a => a.r.tcls)).getD false
    | none => false
  { w := (numsFrom 0 4).map (fun i => v.extractLsb' (64 * i) 64), ctx := x.ctx, lathe := some l, core := 16 * (l / 4), launch := x.bound,
    tcls := tcls }

def semToutC (va : BitVec 5) (_ _ : BitVec 4) (l : Nat) (s0 s : State) : LOut :=
  let cl := l / 4
  let f := 16 + l % 4
  if 16 ≤ (s.fifo cl f).entries.length then .trap (causeTrap 14)
  else .ok (s.pushRequest cl f (s0.latheRequest l ((s0.lathe l).vv va.toNat)))

def semTnop (_ : Nat) (_ s : State) : LOut := .ok s

end Sys2Proof.Machine
end

