-- ==== Sys2Proof/Machine/LatheIssue.lean ====
section
/-! DEFINITION. The sequencer of a Lathe: fetch, stalls, issue, branches and loops, gangs, traps; and the meaning of every slot operation
as a bundle that holds it alone (R138, R207 to R210, R276 to R281, R289, R306 to R308, R317, R333 to R335). -/

namespace Sys2Proof.Machine

/-! ### Operations -/

/-- What a slot operation does at issue. -/
def latheSem (op : Instr) : Nat → State → State → LOut :=
  match op with
  | .snop => semSnop
  | .sadd qd qa i imm => semSadd qd qa i imm
  | .ssub qd qa i imm => semSsub qd qa i imm
  | .smul qd qa i imm => semSmul qd qa i imm
  | .sand qd qa i imm => semSand qd qa i imm
  | .sor qd qa i imm => semSor qd qa i imm
  | .sxor qd qa i imm => semSxor qd qa i imm
  | .sshl qd qa i imm => semSshl qd qa i imm
  | .sshr qd qa i imm => semSshr qd qa i imm
  | .scmp qd qa qb cc => semScmp qd qa qb cc
  | .smovi qd imm => semSmovi qd imm
  | .smovk qd index => semSmovk qd index
  | .sb cond qa disp => semSb cond qa disp
  | .loop i qa imm => semLoop i qa imm
  | .qwait hd qd => semQwait hd qd
  | .qpostLathe l h => semQpostLathe l h
  | .qeosLathe l => semQeosLathe l
  | .tretLathe h => semTretLathe h
  | .getkLathe qd k => semGetkLathe qd k
  | .setkLathe qa k => semSetkLathe qa k
  | .trapsw code => semTrapsw code
  | .vnop => semVnop
  | .vadd vd va vb ty => semVadd vd va vb ty
  | .vsub vd va vb ty => semVsub vd va vb ty
  | .vmul vd va vb ty => semVmul vd va vb ty
  | .vfma vd va vb ty => semVfma vd va vb ty
  | .vmax vd va vb ty => semVmax vd va vb ty
  | .vmin vd va vb ty => semVmin vd va vb ty
  | .vand vd va vb ty => semVand vd va vb ty
  | .vor vd va vb ty => semVor vd va vb ty
  | .vxor vd va vb ty => semVxor vd va vb ty
  | .vshl vd va vb ty => semVshl vd va vb ty
  | .vshr vd va vb ty => semVshr vd va vb ty
  | .vcvt vd va ty st => semVcvt vd va ty st
  | .vbcast vd qa ty => semVbcast vd qa ty
  | .vred qd va ty op => semVred qd va ty op
  | .vsel vd va vb ty => semVsel vd va vb ty
  | .vcmp vd va vb ty cc => semVcmp vd va vb ty cc
  | .vmac16 vd va vb ty => semVmac16 vd va vb ty
  | .vrow vd acc ty part row => semVrow vd acc ty part row
  | .vwacc acc va ty part row => semVwacc acc va ty part row
  | .fnop => semFnop
  | .fexp2 vd va => semFexp2 vd va
  | .flog2 vd va => semFlog2 vd va
  | .frcp vd va => semFrcp vd va
  | .frsqrt vd va => semFrsqrt vd va
  | .fsin vd va => semFsin vd va
  | .fcos vd va => semFcos vd va
  | .smx ao asc qs hout => semSmx ao asc qs hout
  | .smxm ad ae => semSmxm ad ae
  | .smxf acc => semSmxf acc
  | .smxz acc => semSmxz acc
  | .mnop => semMnop
  | .mma ad hA hB na nb dis qo => semMma ad hA hB na nb dis qo
  | .mmat ad hA hB na nb dis qo => semMmat ad hA hB na nb dis qo
  | .xchg vd va => semXchg vd va
  | .enop => semEnop
  | .escl e => semEscl e
  | .tnop => semTnop
  | .tld vd h row chunk => semTld vd h row chunk
  | .tstLathe va h row chunk fin => semTstLathe va h row chunk fin
  | .tmask qd h sel => semTmask qd h sel
  | .tout va qa qb => semTout va qa qb
  | .toutC va qa qb => semToutC va qa qb
  | .tseal h => semTseal h
  | _ => semSnop

/-! ### Stalls (R276) -/

/-- A post to a full queue waits in order, and the stall counter counts it once (R95). -/
def State.postStall (s : State) (l d : Nat) : Option (State → State) :=
  if s.sameLaunch l d && !s.hqOpen d (.lathe l) then some (fun u => u.hqWaits d (.lathe l)) else none

/-- Pushes of one bundle that find no room in lenient mode: the stall counter counts each of them once (R98). -/
def State.pushStalls (u : State) (l n : Nat) : State :=
  let x := u.lathe l
  if x.stalledPost then u
  else u.setLathe l { x with stalledPost := true, fifo := { x.fifo with stall := (numsFrom 0 n).foldl (fun c _ => sat32 c) x.fifo.stall } }

/-- The return of the tile in a handle register waits for reads in progress (R304).
DEDUCED, unsafe: assumption 26. -/
def State.returnStalls (s0 s : State) (l h : Nat) : Bool :=
  match s0.tileNow s l h with
  | some t => (s.tile t).st != .held && (s.tile t).st != .queued && (s.tileRead t || (s.tile t).returnLate)
  | none => false

/-- The Lathe waits for the walk of a page (R171, R172).
DEDUCED, unsafe: assumption 56. -/
def State.latheWalk (u : State) (l va slotNo : Nat) (scale : Option Int) : State :=
  let x := u.lathe l
  match x.walk with
  | some _ => u
  | none =>
    (u.setLathe l { x with walk := some (x.ctx, va / 2 ^ 19), walkScale := scale }).askWalk x.ctx va
      { who := .lathe l, cluster := l / 4, va := va, faddr := BitVec.ofNat 64 va, acc := .write, user := true, slotNo := slotNo,
        pc := x.pc.toNat }

/-- The exponent of a bundle's `escl`. -/
def Bundle.scale (b : Bundle) : Option Int :=
  (b.ops.filterMap (fun p => match p.2 with
    | .escl e => some e.toInt
    | _ => none)).head?

/-- An operation that holds its bundle back: what is noted while it does. A bundle that stalls does not issue, and the monitor has not
looked at it (R276, R278); a `tret`, `tseal` or `tout` whose handle or address is itself pending does not stall: its bundle traps. A `tseal` of a tile
that another agent has written in this cycle comes to the port in the next (R132, R316).
DEDUCED, unsafe: assumption 54. -/
def State.opStall (s0 s : State) (l : Nat) (b : Bundle) (k : Nat) (op : Instr) : Option (State → State) :=
  let x := s0.lathe l
  match op with
  | .qwait _ _ => if x.hq.isEmpty && !x.relPending then some id else none
  | .qpostLathe n h =>
    if s.postOrphaned l (postTarget l n) then (if !s0.hazard l op && s0.returnStalls s l h.toNat then some id else none)
    else s.postStall l (postTarget l n)
  | .qeosLathe n => s.postStall l (postTarget l n)
  | .tretLathe h => if !s0.hazard l op && s0.returnStalls s l h.toNat then some id else none
  | .tseal h => if !s0.hazard l op && (s0.tileNow s l h.toNat).any s0.portBusy then some id else none
  | .tout _ qa qb =>
    match s0.hazard l op, s0.toutTo l (toutAddr x qa qb) with
    | false, .miss => some (fun u => u.latheWalk l (toutAddr x qa qb) k b.scale)
    | _, _ => none
  | .toutC _ _ _ =>
    let pushes := (b.ops.filter (fun p => match p.2 with
      | .toutC _ _ _ => true
      | _ => false)).length
    let full := (s.fifo (l / 4) (16 + l % 4)).entries.length + pushes
    if 16 < full ∧ !(s.ctx x.ctx).cstrict then some (fun u => u.pushStalls l (min pushes (full - 16))) else none
  | _ => none

/-- What is noted while a bundle is stalled; none where it is not.
DEDUCED, unsafe: assumption 54. -/
def State.bundleStalls (s0 s : State) (l : Nat) (b : Bundle) : List (State → State) :=
  b.ops.filterMap (fun p => s0.opStall s l b p.1 p.2)

/-! ### Issue (R276 to R279) -/

/-- The operations act in slot order; or the first slot that traps.
DEDUCED, unsafe: assumption 54. -/
def State.slotsAct (l : Nat) (s0 : State) : List (Nat × Instr) → State → Except (Nat × TrapInfo) State
  | [], s => .ok s
  | (k, op) :: rest, s =>
    match latheSem op l s0 s with
    | .ok t => State.slotsAct l s0 rest t
    | .trap t => .error (k, t)

/-- The monitor checks every slot before any acts: the first slot at fault (R278). -/
def State.hazardSlot (s0 : State) (l : Nat) (b : Bundle) : Option Nat := (b.ops.find? (fun p => s0.hazard l p.2)).map (·.1)

/-- The bundle holds a `qwait` that releases the Lathe (R285).
DEDUCED, unsafe: assumption 54. -/
def Lathe.releasing (x : Lathe) (b : Bundle) : Bool :=
  x.relPending && b.ops.any (fun p => match p.2 with
    | .qwait _ _ => true
    | _ => false)

/-- The bundle is in issue no more. -/
def State.unhold (s : State) (l : Nat) : State := s.setLathe l { s.lathe l with held := none, atGang := false }

/-- What an attempt to issue comes to. -/
inductive Issue where
  | stalled (notes : List (State → State))
  | released (s : State)
  | trapped (slotNo : Nat) (t : TrapInfo)
  | issued (s : State)

/-- An attempt: registers are read in s0, effects made on s.
DEDUCED, unsafe: assumption 54. -/
def State.tryBundle (s0 s : State) (l : Nat) (b : Bundle) : Issue :=
  match s0.bundleStalls s l b with
  | [] =>
    match s0.hazardSlot l b with
    | some k => .trapped k tHAZARD
    | none =>
      if (s0.lathe l).releasing b then .released (s.releaseLathe l)
      else
        match State.slotsAct l s0 b.ops s with
        | .error (k, t) => .trapped k t
        | .ok t => .issued t
  | notes => .stalled notes

/-- The loop step of a bundle with the lend mark (R280): the loop stack and the next address. -/
def lendStep (loops : List (BitVec 56 × Word32)) (next : BitVec 56) : List (BitVec 56 × Word32) × BitVec 56 :=
  match loops with
  | [] => ([], next)
  | (start, n) :: rest => if 1 < n.toNat then ((start, n - 1) :: rest, start) else (rest, next)

/-- The bundle holds a matrix operation. -/
def Bundle.hasMat (b : Bundle) : Bool :=
  b.ops.any (fun p => match p.2 with
    | .mma _ _ _ _ _ _ _ => true
    | .mmat _ _ _ _ _ _ _ => true
    | _ => false)

/-- The bundle has issued: the sequencer goes on, and keeps the bytes that a matrix bundle has fetched ahead (R306) (R276, R280, R281, R284), and `trapsw` traps (R289). -/
def State.sequence (s0 s : State) (l : Nat) (b : Bundle) : State :=
  let x0 := s0.lathe l
  let x := s.lathe l
  let next := BitVec.ofNat 56 (b.addr + b.size)
  let ops := b.ops.map (·.2)
  let y : Lathe := { x with held := none, atGang := false, eDone := false, stalledPost := false, gone := [],
                            fetched := if b.hasMat then x.fetched else [], nextIssue := s.cycle + b.dly + 1 }
  let z : Lathe :=
    match (ops.filterMap (takenBranch x0)).head?, (ops.filterMap (loopCount x0)).head? with
    | some disp, _ => { y with pc := BitVec.ofInt 56 ((b.addr : Int) + 4 * disp.toInt), nextIssue := s.cycle + max (b.dly + 1) 3 }
    | none, some n =>
      if n = 0 then { y with pc := next, skip := 1 } else { y with pc := next, loops := (next, BitVec.ofNat 32 n) :: x.loops }
    | none, none =>
      if b.lend then { y with pc := (lendStep x.loops next).2, loops := (lendStep x.loops next).1 } else { y with pc := next }
  let s1 := s.setLathe l z
  match trapswCode b.ops with
  | none => s1
  | some code => s1.latheStops l { cause := 19, code := code } 0 b.addr z.pc.toNat false

/-- R306 item 3: the exponent of a bundle that traps at issue is still delivered; whether the record says so. -/
def State.deliver (s : State) (l : Nat) (scale : Option Int) : State × Bool :=
  match scale with
  | none => (s, false)
  | some e => if (s.lathe l).eDone then (s, true) else if s.hasScale l then (s.scaleMat l e, true) else (s, false)

/-- A bundle traps at issue: no slot takes effect (R279). -/
def State.bundleTraps (s : State) (l : Nat) (b : Bundle) (k : Nat) (t : TrapInfo) : State :=
  let d := s.deliver l b.scale
  State.unhold (d.1.latheStops l t k b.addr b.addr d.2) l

/-- The Lathe stops at a bundle that traps ILLEGAL at decode (R210); the exponent that its E word holds is delivered (R306). -/
def State.latheIllegal (s : State) (l k : Nat) (scale : Option Int) : State :=
  let pc := (s.lathe l).pc.toNat
  let d := s.deliver l scale
  State.unhold (d.1.latheStops l tILLEGAL k pc pc d.2) l

/-- The exponent that the E word of an undecoded bundle holds. -/
def wordsScale (head : Word32) (ws : List Word32) : Option Int :=
  match ((presentSlots head).zip ws).find? (fun p => p.1 == 5) with
  | some (_, w) => (match decodeSlot (slotKind 5) w with
    | .ok (.escl e) => some e.toInt
    | _ => none)
  | none => none

/-- The bundle is in issue. -/
def State.hold (s : State) (l : Nat) (b : Bundle) : State := s.setLathe l { s.lathe l with held := some b }

/-! ### What a Lathe issues next -/

/-- A word of the Lathe's bundle. -/
def State.codeWord (s : State) (l va : Nat) : State × CRes Word32 :=
  let ctx := (s.lathe l).ctx
  match windowOf va with
  | .global =>
    match s.engineXlate (.code l) (l / 4) ctx va .fetch true false with
    | (s1, .fault r) => (s1, .bad 0 va r)
    | (s1, .ok e pa) =>
      match tgtOf e pa with
      | .sp _ => (s1, .bad 0 va 0)
      | .hbm a => if s1.poisoned a 4 then (s1, .bad 0 va 6) else (s1, .ok (BitVec.ofNat 32 (leNat (s1.visBytes ctx 0 a 4))))
      | .host a =>
        if s1.hostFails a 4 then (s1, .bad 0 va 5) else (s1, .ok (BitVec.ofNat 32 (leNat (Memory.readBytes s1.host a 4))))
      | .remote rmod a =>
        match (s1.lathe l).fetched.find? (fun f => f.rmod == rmod && f.pa == a) with
        | some f => if f.status ≠ 0 then (s1, .bad f.status va 5) else (s1, .ok (BitVec.ofNat 32 (leNat (f.bytes.take 4))))
        | none =>
          if s1.links.reqs.any (fun r => r.who == .code l) || s1.links.egress.any (fun e => e.who == .code l) then (s1, .wait)
          else (s1.egress (l / 4) ctx { op := 2, dst := rmod, src := s1.links.lmod, len := 3, addr := a } (.code l), .wait)
    | (s1, _) => (s1, .wait)
  | _ => (s, .bad 0 va 1)

/-- n words from an address on. -/
def State.codeWords (s : State) (l va : Nat) : Nat → State × CRes (List Word32)
  | 0 => (s, .ok [])
  | n + 1 => cThen (s.codeWord l va) (fun s w => cThen (s.codeWords l ((va + 4) % 2 ^ 56) n) (fun s r => (s, .ok (w :: r))))

/-- The head word of the bundle at an address, and the rest of its words.
DESIGN CHOICE, unsafe: assumption 8. -/
def State.bundleWords (s : State) (l va : Nat) : State × CRes (Word32 × State × CRes (List Word32)) :=
  cThen (s.codeWord l va) (fun s h => (s, .ok (h, s.codeWords l ((va + 4) % 2 ^ 56) (presentSlots h).length)))

/-- A scale window of the Lathe is open (R306). -/
def State.scaleOpen (s : State) (l : Nat) : Bool := (s.lathe l).mats.any (fun m => decide (s.cycle ≤ m.start + 12))

/-- The Lathe's context lets it issue; while it is saved, only until no scale window is open (R76, R306 item 2). -/
def State.latheRuns (s : State) (l : Nat) : Bool :=
  let x := s.lathe l
  s.ctxRuns x.ctx || ((s.ctx x.ctx).st == .saving && s.scaleOpen l)

/-- The Lathe may issue in this cycle, or, while its context is saved, take a trap that is due (R317). -/
def State.latheMay (s : State) (l : Nat) : Bool :=
  let x := s.lathe l
  x.bound.isSome && x.trap.isNone && x.walk.isNone && decide (x.nextIssue ≤ s.cycle)
  && (s.latheRuns l || ((s.ctx x.ctx).st == .saving && !x.late.isEmpty))

/-- The Lathes of a cluster. -/
def lathesOf (cl : Nat) : List Nat := numsFrom (4 * cl) 4

/-- The Lathe may issue in this cycle, and has had no turn in it. -/
def State.latheDue (s : State) (l : Nat) : Bool := s.latheMay l && (s.lathe l).turnAt != some s.cycle

/-- The bundle that a Lathe issues next, where its words are at hand. -/
def State.nextBundle (s : State) (l : Nat) : Option Bundle :=
  let x := s.lathe l
  if x.skip ≠ 0 then none
  else if x.atGang then x.held
  else
    match (s.bundleWords l x.pc.toNat).2 with
    | .ok (h, _, .ok ws) => (decodeBundle x.pc.toNat x.loops.isEmpty (h :: ws)).toOption
    | _ => none

/-- The bytes that the issue of a bundle needs after its own are at hand (R306 item 1). -/
def State.aheadReady (s : State) (l : Nat) (b : Bundle) : Bool :=
  !b.hasMat || (match (s.bundleWords l ((b.addr + b.size) % 2 ^ 56)).2 with
    | .ok (_, _, .ok _) => true
    | _ => false)

/-! ### Seals and writes of one cycle (R132, R316) -/

/-- The tiles that a bundle's `tseal`s name. -/
def State.sealedBy (s0 : State) (p : Nat × Bundle) : List Nat :=
  p.2.ops.filterMap (fun q => match q.2 with
    | .tseal h => s0.tileNow s0 p.1 h.toNat
    | _ => none)

/-- The tile that a slot operation writes by way of the port. -/
def State.portTile (s0 : State) (l : Nat) (op : Instr) : Option Nat :=
  match op with
  | .tstLathe _ h _ _ _ => s0.tileNow s0 l h.toNat
  | .smx _ _ _ h => s0.tileNow s0 l h.toNat
  | _ => none

/-- The first slot of a bundle that writes one of some tiles by way of the port. -/
def State.firstWrite (s0 : State) (tiles : List Nat) (p : Nat × Bundle) : Option Nat :=
  (p.2.ops.find? (fun q => (s0.portTile p.1 q.2).any tiles.contains)).map (·.1)

/-- An attempt of which a slot writes a tile that another Lathe seals in the same cycle: the write follows the seal, and is refused (R132,
R316). -/
def Issue.refusedAt (r : Issue) (slot : Option Nat) : Issue :=
  match r, slot with
  | .issued _, some k => .trapped k (portTrap 3)
  | .trapped k t, some j => if j < k ∨ (j = k ∧ t = portTrap 4) then .trapped j (portTrap 3) else .trapped k t
  | r, _ => r

/-- The tiles that a Lathe seals in this cycle, in a turn that it is still to have and with a bundle of its own that issues.
DEDUCED, unsafe: assumption 73. -/
def State.sealsDue (s : State) (l : Nat) : List Nat :=
  if s.latheDue l && (s.lathe l).late.isEmpty then
    match s.nextBundle l with
    | none => []
    | some b =>
      let s0 := (s.settle l).hold l b
      if b.gang || !s.aheadReady l b then []
      else match s0.tryBundle s0 l b with
        | .issued _ => s0.sealedBy (l, b)
        | _ => []
  else []

/-- The tiles of the cluster that its other Lathes seal in this cycle. -/
def State.sealedByOthers (s : State) (l : Nat) : List Nat := ((lathesOf (l / 4)).filter (fun m => m != l)).flatMap s.sealsDue

/-- A bundle issues, stalls or traps, whole. -/
def State.issueBundle (s : State) (l : Nat) (b : Bundle) : State :=
  let s0 := (s.settle l).hold l b
  match (s0.tryBundle s0 l b).refusedAt (s0.firstWrite (s.sealedByOthers l) (l, b)) with
  | .stalled notes => State.unhold (notes.foldl (fun u f => f u) s0) l
  | .released u => u.unhold l
  | .trapped k t => s0.bundleTraps l b k t
  | .issued u => s0.sequence u l b

/-! ### Gangs (R138, R307, R308) -/

/-- The Lathe has reached a gang bundle and waits at it. -/
def Lathe.gangBundle (x : Lathe) : Option Bundle := if x.atGang && x.trap.isNone then x.held else none

/-- All four Lathes are bound to one launch.
DEDUCED, unsafe: assumption 55. -/
def State.oneLaunch (s : State) (cl : Nat) : Bool :=
  (s.lathe (4 * cl)).bound.isSome && (lathesOf cl).all (fun l => (s.lathe l).bound == (s.lathe (4 * cl)).bound)

/-- Every Lathe that has reached a gang bundle traps ILLEGAL while the four are not bound to one launch.
DEDUCED, unsafe: assumption 55. -/
def State.gangCheck (s : State) (cl : Nat) : State :=
  if s.oneLaunch cl then s
  else (lathesOf cl).foldl (fun u l => match (u.lathe l).gangBundle with
    | some b => u.bundleTraps l b 8 tILLEGAL
    | none => u) s

/-- The four gang bundles, where all four Lathes have reached theirs, each may issue in this cycle (R73, R76), and none has a trap due. -/
def State.gangReady (s : State) (cl : Nat) : Option (List (Nat × Bundle)) :=
  let bs := (lathesOf cl).filterMap (fun l =>
    match (s.lathe l).gangBundle with
    | some b => if s.latheMay l && (s.lathe l).late.isEmpty then some (l, b) else none
    | none => none)
  if bs.length = 4 then some bs else none

/-- The attempt of the four: the state they leave, the notes of those that stall, the traps. -/
structure GangTry where
  s : State
  notes : List (State → State) := []
  traps : List (Nat × Bundle × Nat × TrapInfo) := []

/-- An attempt of one of several bundles that issue in the same cycle. -/
def State.tryGang (s0 s : State) (bs : List (Nat × Bundle)) (p : Nat × Bundle) : Issue :=
  (s0.tryBundle s p.1 p.2).refusedAt (s0.firstWrite ((bs.filter (fun q => q.1 != p.1)).flatMap s0.sealedBy) p)

/-- The four bundles are tried in the order of their Lathes; all read their registers in s0.
DEDUCED, unsafe: assumption 55. -/
def State.gangTry (s0 : State) (bs : List (Nat × Bundle)) : GangTry :=
  bs.foldl (fun (g : GangTry) p =>
    match s0.tryGang g.s bs p with
    | .stalled n => { g with notes := g.notes ++ n }
    | .released u => { g with s := u }
    | .trapped k t => { g with traps := g.traps ++ [(p.1, p.2, k, t)] }
    | .issued u => { g with s := s0.sequence u p.1 p.2 }) { s := s0 }

/-- GANG_ISSUE: the four issue together, or none does. -/
def State.gangIssue (s : State) (cl : Nat) : State :=
  let s0 := (lathesOf cl).foldl (fun u l => u.settle l) (s.gangCheck cl)
  match s0.gangReady cl with
  | none => s0
  | some bs =>
    let holders := (bs.filter (fun p => (xchgSource p.2).isSome)).length
    let g := s0.gangTry bs
    if !g.notes.isEmpty then g.notes.foldl (fun u f => f u) s0
    else if bs.any (fun p => (s0.lathe p.1).releasing p.2) then
      State.gangCheck (bs.foldl (fun u p => if (s0.lathe p.1).releasing p.2 then (u.releaseLathe p.1).unhold p.1 else u) s0) cl
    else if holders ≠ 0 ∧ holders ≠ 4 then bs.foldl (fun u p => u.bundleTraps p.1 p.2 4 tILLEGAL) s0
    else if !g.traps.isEmpty then g.traps.foldl (fun u p => u.bundleTraps p.1 p.2.1 p.2.2.1 p.2.2.2) s0
    else g.s

/-- A Lathe reaches a gang bundle; with it the last of the four may have (R138). -/
def State.reachGang (s : State) (l : Nat) (b : Bundle) : State :=
  let s1 := (s.settle l).hold l b
  State.gangIssue (s1.setLathe l { s1.lathe l with atGang := true }) (l / 4)

def execGangIssue (s : State) : Out := .next (s.gangIssue s.ctl.at_.cluster)

/-! ### Fetch (R209, R306 item 1, R335) -/

/-- The slot whose word starts a number of bytes after the head word. -/
def slotAt (head : Word32) (off : Nat) : Nat := (presentSlots head).getD (off / 4 - 1) 8

/-- The Lathe traps FETCH_FAULT at its next bundle. An exponent that the bundle has delivered stays delivered (R306). -/
def State.codeFault (s : State) (l slotNo status va reason : Nat) : State :=
  let x := s.lathe l
  State.unhold ((s.setLathe l { x with fetched := [] }).latheStops l
    { cause := 5, status := status, reason := reason, faddr := BitVec.ofNat 64 va } slotNo x.pc.toNat x.pc.toNat x.eDone) l

/-- A decoded bundle whose bytes have come: a matrix bundle needs the bytes of the next one too; a gang bundle waits at the barrier. -/
def State.decoded (s : State) (l : Nat) (b : Bundle) : State :=
  let go := fun (s : State) => if b.gang then s.reachGang l b else s.issueBundle l b
  if b.hasMat then
    match s.bundleWords l ((b.addr + b.size) % 2 ^ 56) with
    | (s1, .wait) => s1
    | (s1, .bad st va re) => s1.codeFault l 8 st va re
    | (_, .ok (_, s1, .wait)) => s1
    | (_, .ok (_, s1, .bad st va re)) => s1.codeFault l 8 st va re
    | (_, .ok (_, s1, .ok _)) => go s1
  else go s

/-- The bundle at the pc is fetched, decoded and issued. -/
def State.fetchBundle (s : State) (l : Nat) : State :=
  let x := s.lathe l
  let pc := x.pc.toNat
  match s.bundleWords l pc with
  | (s1, .wait) => s1
  | (s1, .bad st va re) => s1.codeFault l 8 st va re
  | (_, .ok (_, s1, .wait)) => s1
  | (_, .ok (h, s1, .bad st va re)) => s1.codeFault l (slotAt h (va - pc)) st va re
  | (_, .ok (h, s1, .ok ws)) =>
    match decodeBundle pc x.loops.isEmpty (h :: ws) with
    | .error k => s1.latheIllegal l k (wordsScale h ws)
    | .ok b => s1.decoded l b

/-- One bundle of the scan over a skipped loop body (R281). -/
def State.skipBundle (s : State) (l : Nat) : State :=
  let pc := (s.lathe l).pc.toNat
  match s.codeWord l pc with
  | (s1, .wait) => s1
  | (s1, .bad st va re) => s1.codeFault l 8 st va re
  | (s1, .ok h) =>
    match (if h.getLsbD 24 then s1.codeWords l ((pc + 4) % 2 ^ 56) 1 else (s1, .ok [])) with
    | (s2, .wait) => s2
    | (s2, .bad st va re) => s2.codeFault l 0 st va re
    | (s2, .ok ws) =>
      let x := s2.lathe l
      let opens := ws.any (fun w => w.extractLsb' 26 6 == 0x0D#6)
      s2.setLathe l { x with skip := x.skip + b2n opens - b2n (h.getLsbD 19), pc := BitVec.ofNat 56 (pc + bundleSize h),
                             nextIssue := x.nextIssue + 1, fetched := [] }

/-! ### The turn of a Lathe -/

/-- R317: the trap of a wrong WF8 block is taken before a bundle issues, at the latest once the read has ended. An exponent that the
bundle has delivered stays delivered (R306).
DEDUCED, unsafe: assumption 57. -/
def State.lateTrap (s : State) (l : Nat) (r : TrapRec) : State :=
  let x := s.lathe l
  let q := if x.eDone then { r with cause := r.cause ||| BitVec.ofNat 64 (2 ^ 30) } else r
  State.dropPosts (s.setLathe l { x with late := x.late.filter (fun p => p.1 != r), held := none, atGang := false
                                         trap := some { rec_ := { q with resume := x.pc.toNat, cycle := s.cycle } } }) l

/-- The Lathe's next bundle.
DESIGN CHOICE, unsafe: assumption 18. -/
def State.latheNext (s : State) (l : Nat) : State :=
  let x := s.lathe l
  if x.skip ≠ 0 then s.skipBundle l
  else if x.atGang then s.gangIssue (l / 4)
  else s.fetchBundle l

/-- A Lathe's turn. -/
def State.latheTurn (s : State) (l : Nat) : State :=
  if !s.latheMay l then s
  else
    let x := s.lathe l
    match x.late.find? (fun p => decide (p.2 < s.cycle)), x.late with
    | some p, _ => s.lateTrap l p.1
    | none, [] => s.latheNext l
    | none, p :: _ =>
      if s.freeBit then s.tookFree.lateTrap l p.1
      else if s.latheRuns l then s.tookFree.latheNext l
      else s.tookFree

/-! ### LATHE_TRAP (R333) and ILLEGAL_BUNDLE (R210) -/

/-- The Lathe has drained: every write has landed and every read has ended (R279). -/
def State.drained (s : State) (l : Nat) : Bool :=
  let x := s.lathe l
  x.pending.all (fun p => decide (p.2 ≤ s.cycle)) && x.mats.all (fun m => decide (m.landsAt ≤ s.cycle))
  && x.reads.all (fun p => decide (p.2 ≤ s.cycle))

/-- A stopped Lathe whose record has neither been written nor waits for room. -/
def State.trapDue (s : State) (l : Nat) : Option TrapRec :=
  let x := s.lathe l
  match x.trap with
  | none => none
  | some t => if t.written || (s.ctx x.ctx).recs.any (fun p => p.2 == some (.lathe l)) then none else some t.rec_

/-- LATHE_TRAP: the Lathe has drained, and its record is written, or waits for room in the ring. -/
def State.latheRecord (s : State) (l : Nat) : State :=
  match s.trapDue l with
  | none => s
  | some r =>
    if !s.drained l then s
    else
      match (s.settle l).record r (some (.lathe l)) with
      | (s1, false) => s1
      | (s1, true) =>
        let x := s1.lathe l
        s1.setLathe l { x with trap := x.trap.map (fun (t : LTrap) => { t with written := true }) }

def execLatheTrap (s : State) : Out := .next (s.latheRecord s.ctl.at_.lathe)

def execIllegalBundle (slot : BitVec 4) (s : State) : Out := .next (s.latheIllegal s.ctl.at_.lathe slot.toNat none)

/-! ### Slot operations, each as a bundle that holds it alone -/

/-- The bundle that holds one operation. -/
def State.oneBundle (s : State) (l : Nat) (op : Instr) : Bundle :=
  { addr := (s.lathe l).pc.toNat, size := 8, ops := [(slotNoOf op, op)] }

/-- The operation issues alone; a value that its encoding marks illegal traps ILLEGAL (R210). -/
def State.issueOne (s : State) (op : Instr) : State :=
  let l := s.ctl.at_.lathe
  if slotValueLegal op then s.issueBundle l (s.oneBundle l op) else s.latheIllegal l (slotNoOf op) none

/-- An operation of a gang bundle: the Lathe reaches it, and the four issue when all have reached theirs (R308). -/
def State.gangOne (s : State) (op : Instr) : State :=
  let l := s.ctl.at_.lathe
  s.reachGang l { s.oneBundle l op with gang := true }

def execSnop (s : State) : Out := .next (s.issueOne .snop)
def execSadd (qd qa : BitVec 4) (i : BitVec 1) (imm : BitVec 17) (s : State) : Out := .next (s.issueOne (.sadd qd qa i imm))
def execSsub (qd qa : BitVec 4) (i : BitVec 1) (imm : BitVec 17) (s : State) : Out := .next (s.issueOne (.ssub qd qa i imm))
def execSmul (qd qa : BitVec 4) (i : BitVec 1) (imm : BitVec 17) (s : State) : Out := .next (s.issueOne (.smul qd qa i imm))
def execSand (qd qa : BitVec 4) (i : BitVec 1) (imm : BitVec 17) (s : State) : Out := .next (s.issueOne (.sand qd qa i imm))
def execSor (qd qa : BitVec 4) (i : BitVec 1) (imm : BitVec 17) (s : State) : Out := .next (s.issueOne (.sor qd qa i imm))
def execSxor (qd qa : BitVec 4) (i : BitVec 1) (imm : BitVec 17) (s : State) : Out := .next (s.issueOne (.sxor qd qa i imm))
def execSshl (qd qa : BitVec 4) (i : BitVec 1) (imm : BitVec 17) (s : State) : Out := .next (s.issueOne (.sshl qd qa i imm))
def execSshr (qd qa : BitVec 4) (i : BitVec 1) (imm : BitVec 17) (s : State) : Out := .next (s.issueOne (.sshr qd qa i imm))
def execScmp (qd qa qb : BitVec 4) (cc : BitVec 3) (s : State) : Out := .next (s.issueOne (.scmp qd qa qb cc))
def execSmovi (qd : BitVec 4) (imm : BitVec 22) (s : State) : Out := .next (s.issueOne (.smovi qd imm))
def execSmovk (qd : BitVec 4) (index : BitVec 8) (s : State) : Out := .next (s.issueOne (.smovk qd index))
def execSb (cond : BitVec 2) (qa : BitVec 4) (disp : BitVec 16) (s : State) : Out := .next (s.issueOne (.sb cond qa disp))
def execLoop (i : BitVec 1) (qa : BitVec 4) (imm : BitVec 16) (s : State) : Out := .next (s.issueOne (.loop i qa imm))
def execQwait (hd : BitVec 3) (qd : BitVec 4) (s : State) : Out := .next (s.issueOne (.qwait hd qd))
def execQpostLathe (l : BitVec 2) (h : BitVec 3) (s : State) : Out := .next (s.issueOne (.qpostLathe l h))
def execQeosLathe (l : BitVec 2) (s : State) : Out := .next (s.issueOne (.qeosLathe l))
def execTretLathe (h : BitVec 3) (s : State) : Out := .next (s.issueOne (.tretLathe h))
def execGetkLathe (qd : BitVec 4) (k : BitVec 6) (s : State) : Out := .next (s.issueOne (.getkLathe qd k))
def execSetkLathe (qa : BitVec 4) (k : BitVec 6) (s : State) : Out := .next (s.issueOne (.setkLathe qa k))
def execTrapsw (code : BitVec 12) (s : State) : Out := .next (s.issueOne (.trapsw code))
def execVnop (s : State) : Out := .next (s.issueOne .vnop)
def execVadd (vd va vb : BitVec 5) (ty : BitVec 3) (s : State) : Out := .next (s.issueOne (.vadd vd va vb ty))
def execVsub (vd va vb : BitVec 5) (ty : BitVec 3) (s : State) : Out := .next (s.issueOne (.vsub vd va vb ty))
def execVmul (vd va vb : BitVec 5) (ty : BitVec 3) (s : State) : Out := .next (s.issueOne (.vmul vd va vb ty))
def execVfma (vd va vb : BitVec 5) (ty : BitVec 3) (s : State) : Out := .next (s.issueOne (.vfma vd va vb ty))
def execVmax (vd va vb : BitVec 5) (ty : BitVec 3) (s : State) : Out := .next (s.issueOne (.vmax vd va vb ty))
def execVmin (vd va vb : BitVec 5) (ty : BitVec 3) (s : State) : Out := .next (s.issueOne (.vmin vd va vb ty))
def execVand (vd va vb : BitVec 5) (ty : BitVec 3) (s : State) : Out := .next (s.issueOne (.vand vd va vb ty))
def execVor (vd va vb : BitVec 5) (ty : BitVec 3) (s : State) : Out := .next (s.issueOne (.vor vd va vb ty))
def execVxor (vd va vb : BitVec 5) (ty : BitVec 3) (s : State) : Out := .next (s.issueOne (.vxor vd va vb ty))
def execVshl (vd va vb : BitVec 5) (ty : BitVec 3) (s : State) : Out := .next (s.issueOne (.vshl vd va vb ty))
def execVshr (vd va vb : BitVec 5) (ty : BitVec 3) (s : State) : Out := .next (s.issueOne (.vshr vd va vb ty))
def execVcvt (vd va : BitVec 5) (ty st : BitVec 3) (s : State) : Out := .next (s.issueOne (.vcvt vd va ty st))
def execVbcast (vd : BitVec 5) (qa : BitVec 4) (ty : BitVec 3) (s : State) : Out := .next (s.issueOne (.vbcast vd qa ty))
def execVred (qd : BitVec 4) (va : BitVec 5) (ty : BitVec 3) (op : BitVec 2) (s : State) : Out := .next (s.issueOne (.vred qd va ty op))
def execVsel (vd va vb : BitVec 5) (ty : BitVec 3) (s : State) : Out := .next (s.issueOne (.vsel vd va vb ty))
def execVcmp (vd va vb : BitVec 5) (ty cc : BitVec 3) (s : State) : Out := .next (s.issueOne (.vcmp vd va vb ty cc))
def execVmac16 (vd va vb : BitVec 5) (ty : BitVec 3) (s : State) : Out := .next (s.issueOne (.vmac16 vd va vb ty))
def execVrow (vd : BitVec 5) (acc ty : BitVec 3) (part : BitVec 2) (row : BitVec 6) (s : State) : Out := .next (s.issueOne (.vrow vd acc ty part row))
def execVwacc (acc : BitVec 3) (va : BitVec 5) (ty : BitVec 3) (part : BitVec 2) (row : BitVec 6) (s : State) : Out := .next (s.issueOne (.vwacc acc va ty part row))
def execFnop (s : State) : Out := .next (s.issueOne .fnop)
def execFexp2 (vd va : BitVec 5) (s : State) : Out := .next (s.issueOne (.fexp2 vd va))
def execFlog2 (vd va : BitVec 5) (s : State) : Out := .next (s.issueOne (.flog2 vd va))
def execFrcp (vd va : BitVec 5) (s : State) : Out := .next (s.issueOne (.frcp vd va))
def execFrsqrt (vd va : BitVec 5) (s : State) : Out := .next (s.issueOne (.frsqrt vd va))
def execFsin (vd va : BitVec 5) (s : State) : Out := .next (s.issueOne (.fsin vd va))
def execFcos (vd va : BitVec 5) (s : State) : Out := .next (s.issueOne (.fcos vd va))
def execSmx (ao asc : BitVec 3) (qs : BitVec 4) (hout : BitVec 3) (s : State) : Out := .next (s.issueOne (.smx ao asc qs hout))
def execSmxm (ad ae : BitVec 3) (s : State) : Out := .next (s.issueOne (.smxm ad ae))
def execSmxf (acc : BitVec 3) (s : State) : Out := .next (s.issueOne (.smxf acc))
def execSmxz (acc : BitVec 3) (s : State) : Out := .next (s.issueOne (.smxz acc))
def execMnop (s : State) : Out := .next (s.issueOne .mnop)
def execMma (ad hA hB : BitVec 3) (na nb dis : BitVec 1) (qo : BitVec 4) (s : State) : Out := .next (s.issueOne (.mma ad hA hB na nb dis qo))
def execMmat (ad hA hB : BitVec 3) (na nb dis : BitVec 1) (qo : BitVec 4) (s : State) : Out := .next (s.issueOne (.mmat ad hA hB na nb dis qo))
def execXchg (vd va : BitVec 5) (s : State) : Out := .next (s.gangOne (.xchg vd va))
def execEnop (s : State) : Out := .next (s.issueOne .enop)
def execEscl (e : BitVec 8) (s : State) : Out := .next (s.issueOne (.escl e))
def execTnop (s : State) : Out := .next (s.issueOne .tnop)
def execTld (vd : BitVec 5) (h : BitVec 3) (row : BitVec 7) (chunk : BitVec 5) (s : State) : Out := .next (s.issueOne (.tld vd h row chunk))
def execTstLathe (va : BitVec 5) (h : BitVec 3) (row : BitVec 7) (chunk : BitVec 5) (fin : BitVec 1) (s : State) : Out := .next (s.issueOne (.tstLathe va h row chunk fin))
def execTmask (qd : BitVec 4) (h : BitVec 3) (sel : BitVec 2) (s : State) : Out := .next (s.issueOne (.tmask qd h sel))
def execTout (va : BitVec 5) (qa qb : BitVec 4) (s : State) : Out := .next (s.issueOne (.tout va qa qb))
def execToutC (va : BitVec 5) (qa qb : BitVec 4) (s : State) : Out := .next (s.issueOne (.toutC va qa qb))
def execTseal (h : BitVec 3) (s : State) : Out := .next (s.issueOne (.tseal h))

end Sys2Proof.Machine
end

