-- ==== Sys2Proof/Machine/Walks.lean ====
section
/-! DEFINITION. Page walks that complete: what they found reaches every merged requester (R169, R170, R172, R254, R306), and
page fills (R176). -/

namespace Sys2Proof.Machine

/-! ### Walks that complete (R169, R170, R172, R254) -/

/-- A slot's walk ended well: the instruction issues again. -/
def State.walkWakes (s : State) (w : Walk) (r : WalkReq) : State :=
  match r.who with
  | .slot k =>
    let x := s.slot k
    if x.wait = .walk w.ctx w.vpn then s.setSlot k { x with st := .active, wait := .none } else s
  | .lathe l => s.setLathe l { s.lathe l with walk := none }
  | _ => s

/-- A translation fault reaches a merged requester: another unit than a slot or a Lathe takes it when it looks again. -/
def State.walkFails (s : State) (w : Walk) (r : WalkReq) (reason : Nat) : State :=
  let t : TrapInfo := { cause := if r.acc = .fetch then 5 else 4, reason := reason, faddr := r.faddr }
  match r.who with
  | .slot k =>
    if (s.slot k).wait = .walk w.ctx w.vpn then (s.releasePfx k).trapSlot k { t with faddr := if r.acc = .fetch then BitVec.ofNat 64 r.va else r.faddr } r.pc r.pc
    else s
  | .lathe l =>
    if (s.lathe l).walk = some (w.ctx, w.vpn) then
      let d := s.deliver l (s.lathe l).walkScale
      d.1.latheStops l t r.slotNo r.pc r.pc d.2
    else s
  | .prefetch _ _ => s
  | _ =>
    let d := s.die (dieOf r.cluster)
    s.setDie (dieOf r.cluster) { d with failed := d.failed ++ [(w.ctx, r, reason)] }

/-- A pin that waited for its walk is counted with the walk, and the slot that has asked for it holds the pin until its instruction
issues again (R176, R179, R186); a pin that fails is tried again then.
DEDUCED, unsafe: assumption 39. -/
def State.pinServed (s : State) (w : Walk) (lvl : Nat) (r : WalkReq) : State :=
  match r.who with
  | .slot k =>
    if (s.slot k).wait = .walk w.ctx w.vpn then
      match s.pinAdd w.ctx (pinKey lvl r.va) with
      | some t =>
        let x := t.slot k
        let p : PfxRun := x.pfx.getD { entries := [], dep := 0 }
        t.setSlot k { x with pfx := some { p with pinned := pinKey lvl r.va :: p.pinned } }
      | none => s
    else s
  | _ => s

/-- A prefetch that waited for its walk goes on, unless the walk fails its check or has met an eviction (R178), or its hypothesis is no
longer LIVE. -/
def State.walkPrefetch (s : State) (w : Walk) (lvl entry e core hyp : Nat) (r : WalkReq) : State :=
  if (leafCheck (pteSv e) (pteW e) (pteX e) .read r.user false).isSome || (s.pageAt entry .evicting).isSome
      || ((s.ctx w.ctx).hyp hyp).st != .live then s
  else
    (s.walkUsed r.cluster w.ctx r.va lvl entry e .read).prefetched core w.ctx hyp
      (tgtOf (tlbOfPte lvl (pteTouched e .read)) (ptePa e + r.va % 2 ^ pageLog lvl))

/-- A requester of a walk that found a leaf: its own check, then a, d and the TLBs. A pin or an unpin is no access: its walk marks the
frames and changes neither bit (R170, R373; assumption 39). -/
def State.walkServes (s : State) (w : Walk) (lvl entry : Nat) (r : WalkReq) : State :=
  let e := s.hbmRead entry 8
  match r.who, r.kind with
  | .prefetch core hyp, _ => s.walkPrefetch w lvl entry e core hyp r
  | _, .access =>
    match leafCheck (pteSv e) (pteW e) (pteX e) r.acc r.user false with
    | some reason => s.walkFails w r reason
    | none => (s.walkUsed r.cluster w.ctx r.va lvl entry e r.acc).walkWakes w r
  | _, .pin => ((s.markFrames (tlbOfPte lvl e)).pinServed w lvl r).walkWakes w r
  | _, .unpin => (s.markFrames (tlbOfPte lvl e)).walkWakes w r

/-- The request is an access or a pin: it abandons an eviction, and waits for a page that is not resident (Table 12-7). -/
def WalkReq.needsPage (r : WalkReq) : Bool :=
  match r.who, r.kind with
  | .prefetch _ _, _ => false
  | _, .unpin => false
  | _, _ => true

/-- The walk of a page for a context completes on a die.
DESIGN CHOICE, unsafe: assumption 8. -/
def State.walkDone (s : State) (die ctx vpn : Nat) : State :=
  let d := s.die die
  match (d.walks.take 64).find? (fun w => w.ctx == ctx && w.vpn == vpn) with
  | none => s
  | some w =>
    let off := { d with walks := d.walks.erase w }
    let stay := w.reqs.filter WalkReq.needsPage
    match s.walk ctx (vpn * 2 ^ 19) with
    | .absent a =>
      let s1 := s.setDie die (if stay.isEmpty then off else { d with walks := d.walks.map (fun v => if v = w then { v with reqs := stay } else v) })
      let s2 := (w.reqs.filter (fun r => !r.needsPage)).foldl (fun t r => t.walkWakes w r) s1
      if stay.isEmpty then s2 else s2.touchPage ctx vpn a ((stay.head?.map (·.cluster)).getD 0)
    | .fault reason => w.reqs.foldl (fun t r => t.walkFails w r reason) (s.setDie die off)
    | .leaf lvl a _ =>
      let s1 := s.setDie die off
      w.reqs.foldl (fun t r => t.walkServes w lvl a r) (if stay.isEmpty then s1 else s1.abandon a)

/-- The walks that wait for the page of an entry are over, on whichever dies: their accesses and pins proceed (Table 12-7). -/
def State.walksProceed (s : State) (entry : Nat) : State :=
  (s.dies.flatMap (fun p => (p.2.walks.take 64).map (fun w => (p.1, w)))).foldl
    (fun t p => if s.entryOf p.2.ctx (p.2.vpn * 2 ^ 19) = some entry then t.walkDone p.1 p.2.ctx p.2.vpn else t) s

/-- R176: the backing copy has been read into the frame.
DEDUCED, unsafe: assumption 37. -/
def State.fillDone (s : State) (ctx vpn : Nat) : State :=
  let p := s.mpage ctx vpn
  match p.st, p.frame with
  | .filling, some f =>
    let pa := f * 2 ^ 19
    let h := s.backing p.entry
    let e := s.hbmRead p.entry 8
    let e1 := setBits (setBits (setBits (setBits e 0 0 1) 53 12 (pa / 4096)) 9 9 1) 10 10 0
    let s1 := { s with hbm := copyRange s.host h s.hbm pa (2 ^ 19)
                       poison := outsideSectors s.poison pa (2 ^ 19) ++ moveSectors s.hostBad h pa (2 ^ 19) }
    let s2 := (s1.hbmWriteNat p.entry 8 e1).tookFree.setMpage ctx vpn { st := .resident, entry := p.entry, order := s.ctl.free }
    ((s2.pinsProceed p.entry).walksProceed p.entry).pageService ctx
  | .filling, none => s.pageService ctx
  | _, _ => s

def execPageFillDone (s : State) : Out := .next (s.fillDone s.ctl.at_.ctx s.ctl.at_.vpn)

def execWalkComplete (s : State) : Out := .next (s.walkDone s.ctl.at_.die s.ctl.at_.ctx s.ctl.at_.vpn)

end Sys2Proof.Machine
end

