-- ==== Sys2Proof/Machine/Context.lean ====
section
/-! DEFINITION. Contexts: the CCTL commands, the checks of LOADING, saves and their images, restores, teardown (R69 to R78, R339). -/

namespace Sys2Proof.Machine

/-! ### Commands (R70, Table 4-3) -/

/-- A command is not listed for the state of the index. -/
def State.badState (s : State) (ctx : Nat) : State := s.setCtx ctx { s.ctx ctx with status := 2 }

/-- CCTL addr is written. -/
def State.cctlAddr (s : State) (ctx addr : Nat) : State := s.setCtx ctx { s.ctx ctx with addr := addr }

/-- R233: the entries of the field-layout tables that carry a context's tag lose it. -/
def State.dropTags (s : State) (ctx : Nat) : State :=
  { s with cores := s.cores.map (fun (p : Nat × Core) => (p.1, { p.2 with
      flt := p.2.flt.map (fun (q : Nat × FltEntry) => if q.2.tag = some ctx then (q.1, { q.2 with tag := none }) else q) })) }

/-- R76 step 1: the countdowns of a context's chimes stand still. -/
def State.freezeChimes (s : State) (ctx : Nat) : State :=
  { s with tiles := s.tiles.map (fun (p : Nat × Tile) =>
      match p.2.chimeAt with
      | some c => if p.2.ctx = ctx then (p.1, { p.2 with chimeAt := none, chimeLeft := some (c - s.cycle) }) else p
      | none => p) }

/-- A tile whose countdown goes on from now. -/
def Tile.thaw (t : Tile) (cycle : Nat) : Tile :=
  match t.chimeLeft with
  | some n => { t with chimeAt := some (cycle + n), chimeLeft := none }
  | none => t

/-- The countdowns of a context's chimes go on. -/
def State.thawChimes (s : State) (ctx : Nat) : State :=
  { s with tiles := s.tiles.map (fun (p : Nat × Tile) => if p.2.ctx = ctx then (p.1, p.2.thaw s.cycle) else p) }

/-- A save begins.
DESIGN CHOICE, unsafe: assumption 33. -/
def State.startSave (s : State) (ctx addr : Nat) (compact : Bool) : State :=
  let c := s.ctx ctx
  ((s.setCtx ctx { c with st := .saving, away := true, saveArea := (if addr = 0 then c.saveb else addr) * 4096, compact := compact }).freezeChimes ctx).dropTags ctx

/-- A command that Table 4-3 does not list for the state of the index has no effect but the status; one that it lists takes the addr of its
own write (R70). -/
def State.loadCmd (s : State) (ctx addr : Nat) : State :=
  let c := s.ctx ctx
  match c.st with
  | .free => s.setCtx ctx { c with addr := addr, loadAddr := addr, st := .loading }
  | _ => s.badState ctx

def State.saveCmd (s : State) (ctx addr : Nat) : State :=
  match (s.ctx ctx).st with
  | .running => (s.cctlAddr ctx addr).startSave ctx addr false
  | .checkpointed => (s.cctlAddr ctx addr).startSave ctx addr true
  | _ => s.badState ctx

def State.forceCmd (s : State) (ctx addr : Nat) : State :=
  match (s.ctx ctx).st with
  | .running | .checkpointed | .faulted => (s.cctlAddr ctx addr).startSave ctx addr false
  | _ => s.badState ctx

def State.restoreCmd (s : State) (ctx addr : Nat) : State :=
  let c := s.ctx ctx
  match c.st with
  | .free | .saved => s.setCtx ctx { c with addr := addr, st := .restoring, before := c.st, saveArea := addr * 4096 }
  | _ => s.badState ctx

def State.teardownCmd (s : State) (ctx addr : Nat) : State :=
  let c := s.ctx ctx
  match c.st with
  | .running | .checkpointed | .saved | .faulted => State.dropTags (s.setCtx ctx { c with addr := addr, st := .teardown, live := [] }) ctx
  | _ => s.badState ctx

def execLoad (ctx : BitVec 6) (addr : BitVec 44) (s : State) : Out := s.whenReady (s.loadCmd ctx.toNat addr.toNat)
def execSave (ctx : BitVec 6) (addr : BitVec 44) (s : State) : Out := s.whenReady (s.saveCmd ctx.toNat addr.toNat)
def execForce (ctx : BitVec 6) (addr : BitVec 44) (s : State) : Out := s.whenReady (s.forceCmd ctx.toNat addr.toNat)
def execRestore (ctx : BitVec 6) (addr : BitVec 44) (s : State) : Out := s.whenReady (s.restoreCmd ctx.toNat addr.toNat)
def execTeardown (ctx : BitVec 6) (addr : BitVec 44) (s : State) : Out := s.whenReady (s.teardownCmd ctx.toNat addr.toNat)

/-! ### LOADING (R71, R72) -/

/-- The reserved fields of a descriptor (Table 4-2). -/
def descReserved : List (Nat × Nat) :=
  [(511, 504), (459, 448), (447, 417), (319, 312), (267, 256), (255, 248), (191, 184), (139, 120), (91, 64), (63, 56), (11, 0)]

/-- R72: the descriptor d is accepted.
DESIGN CHOICE, unsafe: assumption 33. -/
def State.descOk (s : State) (d : Nat) : Bool :=
  let f := bitsOf d
  descReserved.all (fun p => f p.1 p.2 == 0) && f 399 384 != 0
  && (f 247 192 == 0 || (f 247 192 % 4 == 0 && windowOf (f 247 192) == .global))
  && !s.fenced (clusterOf (f 411 400))
  && s.inMap (f 55 12 * 4096) 0x2000 && s.inMap (f 311 268 * 4096) (2 ^ 26) && s.inMap (f 503 460 * 4096) (2 ^ 28)
  && s.inMap (f 183 140 * 4096) 0x2010000

/-- A launch queue as an index keeps it through LOAD and TEARDOWN: empty; `ovf` is cleared by a write only (R4).
DESIGN CHOICE, unsafe: assumption 81. -/
def LaunchQueue.flushed (q : LaunchQueue) (en : Bool) : LaunchQueue := { en := en, ovf := q.ovf }

/-- The context of a descriptor: queues empty and enabled, the tree holds only the root, flags clear. The page unit's ring of frames
stays with the index.
DESIGN CHOICE, unsafe: assumption 81. -/
def Ctx.loaded (c : Ctx) (d : Nat) : Ctx :=
  let f := bitsOf d
  { addr := c.addr, st := .running, status := 0, ovfb := f 503 460, cstrict := d.testBit 416, prio := f 415 412,
    budgets := { issue := f 399 384, evict := f 383 368, car := f 367 352, link := f 351 336, chuck := f 335 320 },
    hlog := f 311 268, saveb := f 183 140, pab := f 119 92, ptroot := f 55 12, ovec := BitVec.ofNat 64 (f 247 192), trapc := f 411 400,
    queues := c.queues.map (fun (p : Nat × LaunchQueue) => (p.1, p.2.flushed true))
    frames := c.frames, puOvf := c.puOvf, pevictRes := c.pevictRes, inv := c.inv }

/-- The header of the default save area begins with no image, no record in use, and record 0 as the next; the vectors are software's (R329).
DESIGN CHOICE, unsafe: assumption 80. -/
def State.freshHeader (s : State) (area : Nat) : State :=
  let s1 := ((s.hbmWriteNat area 8 (0x4A345341 * 2 ^ 32 + 2 ^ 24)).hbmWriteNat (area + 0x18) 8 0).hbmWrite (area + 0x20) (List.replicate 128 0)
  (numsFrom 0 256).foldl (fun t i =>
    let a := area + 0x1000 + 64 * i + 32
    let w := t.hbmRead a 8
    if w.testBit 63 then t.hbmWriteNat a 8 (w - 2 ^ 63) else t) s1

/-- The balances and scale bits of an index in the clusters are as at LOAD. -/
def State.clearClusters (s : State) (ctx : Nat) : State :=
  { s with clusters := s.clusters.map (fun (p : Nat × Cluster) =>
      (p.1, { p.2 with bal := Map.erase p.2.bal ctx, scalest := Map.erase p.2.scalest ctx })) }

/-- LOADING_CHECKS. -/
def State.loadingChecks (s : State) (ctx : Nat) : State :=
  let c := s.ctx ctx
  match c.st with
  | .loading =>
    let a := c.loadAddr * 4096
    if s.inMap a 64 && !s.poisoned a 64 && s.descOk (s.hbmRead a 64) then
      let d := c.loaded (s.hbmRead a 64)
      ((s.setCtx ctx d).clearClusters ctx).freshHeader (d.saveb * 4096)
    else s.setCtx ctx { c with st := .free, status := 3 }
  | _ => s

def execLoadingChecks (s : State) : Out := .next (s.loadingChecks s.ctl.at_.ctx)

/-! ### What a context holds in the units -/

/-- A launch is of a context. -/
def launchOfCtx (ctx id : Nat) : Bool := id % 64 == ctx

/-- A message that a save keeps: the threads that restore messages name are saved as slots. -/
def Msg.kept (m : Msg) (ctx : Nat) : Bool := m.ctx == ctx && m.kind != .restore

/-- What a core holds of a context (Table 4-4). -/
def Core.part (c : Core) (ctx : Nat) : Core :=
  let mine := fun (m : Msg) => m.kept ctx
  { inbox := c.inbox.filter mine, ring := c.ring.filter mine, meshWait := c.meshWait.filter mine,
    deque := c.deque.filter (fun t => launchOfCtx ctx t.launch),
    winOwner := c.winOwner.filter (launchOfCtx ctx),
    fifo := { entries := c.fifo.entries.filter (fun q => q.ctx == ctx), stall := c.fifo.stall } }

/-- The core without it. -/
def Core.without (c : Core) (ctx : Nat) : Core :=
  let other := fun (m : Msg) => m.ctx != ctx
  { c with
    inbox := c.inbox.filter other
    ring := c.ring.filter other
    ringNext := Map.erase c.ringNext ctx
    meshWait := c.meshWait.filter other
    deque := c.deque.filter (fun t => !launchOfCtx ctx t.launch)
    winOwner := c.winOwner.filter (fun id => !launchOfCtx ctx id)
    fifo := { c.fifo with entries := c.fifo.entries.filter (fun q => q.ctx != ctx) }
    l1 := c.l1.filter (fun l => !(l.ctx == ctx && l.hyp != 0)) }

/-- The Lathe is bound to a launch of the context. -/
def Lathe.ofCtx (x : Lathe) (ctx : Nat) : Bool := (x.bound.map (launchOfCtx ctx)).getD false

/-- The Lathe released, with what belongs to the unit; posts that a released Lathe had waiting in another's queue leave it. -/
def Lathe.released (x : Lathe) (ctx : Nat) (gone : Nat → Bool) : Lathe :=
  let fifo := { x.fifo with entries := x.fifo.entries.filter (fun q => q.ctx != ctx) }
  let stays := fun (p : PendingPost) => match p with
    | .lathe l => !gone l
    | _ => true
  if x.ofCtx ctx then { hqStall := x.hqStall, fifo := fifo, reads := x.reads, lastMat := x.lastMat }
  else { x with fifo := fifo, hqWait := x.hqWait.filter stays }

/-- Transfers leave a cluster, with what their steps have been debited for. -/
def Cluster.without (c : Cluster) (gone : Xfer → Bool) : Cluster :=
  { c with xfers := c.xfers.filter (fun x => !gone x), looked := c.looked.filter (fun e => !c.xfers.any (fun x => gone x && x.id == e.1)) }

/-- Messages, task records, windows, requests, Lathes, launches, translations and walks of a context leave the units. -/
def State.withdraw (s : State) (ctx : Nat) : State :=
  let s1 := { s with
    cores := s.cores.map (fun (p : Nat × Core) => (p.1, p.2.without ctx))
    lathes := s.lathes.map (fun (p : Nat × Lathe) => (p.1, p.2.released ctx (fun l => (s.lathe l).ofCtx ctx)))
    clusters := s.clusters.map (fun (p : Nat × Cluster) => (p.1, p.2.without (fun x => x.req.ctx == ctx && !x.accepted)))
    mesh := s.mesh.filter (fun p => p.2.ctx != ctx)
    launches := s.launches.filter (fun p => !launchOfCtx ctx p.1)
    dies := s.dies.map (fun (p : Nat × Die) => (p.1, { p.2 with walks := p.2.walks.filter (fun w => w.ctx != ctx),
                                                                    failed := p.2.failed.filter (fun f => f.1 != ctx) }))
    slices := s.slices.map (fun (p : Nat × Slice) => (p.1, { p.2 with dir := p.2.dir.filter (fun v => v.ctx != ctx),
                                                                           fullFor := p.2.fullFor.filter (fun c => c != ctx) })) }
  let s2 := State.dropAnswers ((s1.tlbDrop ctx none).clearClusters ctx) (fun w => match w with
    | .code l => (s.lathe l).ofCtx ctx
    | .launch c _ => c == ctx
    | _ => false)
  let s3 := (s2.cores.map (·.1)).foldl (fun t n =>
    State.admitPushes (((t.refill n 32).newHead n (s.core n).inbox.head?).refreshWindow n) (n / 16) (n % 16) 16) s2
  (s3.lathes.map (·.1)).foldl (fun t l => t.duePosts l) s3

/-- The slots that a context occupies. -/
def State.slotsOf (s : State) (ctx : Nat) : List Nat :=
  (s.slots.filter (fun p => p.2.st != .free && p.2.ctx == ctx)).map (·.1)

/-! ### SAVING (R75, R76) -/

/-- R76 steps 2 to 4: transfers and the toll are over, every fill and direct write has landed, every Lathe has drained, and no answer to an
increment of a done word is awaited (R90). -/
def State.saveReady (s : State) (ctx : Nat) : Bool :=
  let slotOk := fun (x : Slot) => x.fills.isEmpty && !x.leaving && decide (x.st ≠ .orphaned) && (match x.wait with
    | .migrating _ => false
    | _ => true)
  (s.ctx ctx).toll.isNone && s.clusters.all (fun p => p.2.xfers.all (fun x => x.req.ctx != ctx || !x.accepted))
  && s.cores.all (fun p => p.2.directWrites.all (fun w => w.ctx != ctx))
  && (s.slotsOf ctx).all (fun k => slotOk (s.slot k)) && s.launches.all (fun p => !(launchOfCtx ctx p.1 && p.2.asked))
  && s.lathes.all (fun p => !p.2.ofCtx ctx || (s.drained p.1 && !s.scaleOpen p.1 && (s.trapDue p.1).isNone && p.2.late.isEmpty))

/-- The accumulators of a Lathe that the live set names. -/
def liveAccs (live : List Word64) (l : Nat) : Nat :=
  live.foldl (fun m w => if bitsOf w.toNat 63 62 = 1 ∧ 4 * bitsOf w.toNat 17 10 + bitsOf w.toNat 9 8 = l then m ||| bitsOf w.toNat 7 0 else m) 0

/-- The live set names a tile's handle. -/
def liveTile (live : List Word64) (h : Nat) : Bool :=
  live.any (fun w => bitsOf w.toNat 63 62 == 0 && bitsOf w.toNat 31 0 == h)

/-- A Lathe as a save keeps it, with its handle queue and pending seal posts whole: a compact save keeps no vectors and the named
accumulators only (Table 4-4, Table 20-6). -/
def Lathe.saved (x : Lathe) (l : Nat) (compact : Bool) (live : List Word64) : Lathe :=
  let y : Lathe := { x with walk := none, walkScale := none, held := none, atGang := false, fetched := [], reads := [], pending := [], mats := [],
                            hqWait := x.hqWait.filter (fun p => !p.waits), stalledPost := false, fifo := {} }
  if compact then { y with v := [], a := x.a.filter (fun p => (liveAccs live l).testBit p.1) } else y

/-- A tile with its footprint. -/
def State.saveTile (s : State) (t : Nat) : SavedTile :=
  let x := s.tile t
  let lo := spAddr (t / 1024) x.shape.base
  let n := x.shape.stop - x.shape.base
  { key := t, tile := x, bytes := (s.sp.filter (fun p => decide (lo ≤ p.1) && decide (p.1 < lo + n))).map (fun p => (p.1 - lo, p.2)),
    lost := (s.spPoison.filter (fun q => decide (lo ≤ 32 * q) && decide (32 * q < lo + n))).map (fun q => q - lo / 32) }

/-- The tiles of a context, with their keys. -/
def State.tilesOfCtx (s : State) (ctx : Nat) : List Nat :=
  (s.tiles.filter (fun p => p.2.st != .free && p.2.ctx == ctx)).map (·.1)

/-- The lengths of the eight sections: that of the slot records is 512 bytes a slot, the others are free.
DESIGN CHOICE, safe: assumption 2. -/
def sectionLengths (free slots : Nat) : List Nat :=
  (numsFrom 0 8).map (fun i => if i = 3 then 512 * slots else Config.freeNat (free + i))

/-- The offsets of sections of given lengths, one after another from an offset on. -/
def sectionOffsets : List Nat → Nat → List Nat
  | [], _ => []
  | n :: r, o => o :: sectionOffsets r (o + n)

/-- n free bytes.
DESIGN CHOICE, safe: assumption 2. -/
def freeBytes (free n : Nat) : List Byte := (numsFrom free n).map Config.freeByte

/-- What a save writes, by offset: magic, version and kind; the directory; the sections other than the slot records. -/
def savePieces (free slots : Nat) (compact : Bool) : List (Nat × List Byte) :=
  let lens := sectionLengths free slots
  let offs := sectionOffsets lens 0x2010000
  (0, leBytes 8 (0x4A345341 * 2 ^ 32 + 2 ^ 24 + (if compact then 1 else 2)))
  :: (0x20, (offs.zip lens).flatMap (fun p => leBytes 8 p.1 ++ leBytes 8 p.2))
  :: (((numsFrom 0 8).zip (offs.zip lens)).filter (fun p => p.1 != 3)).map (fun p => (p.2.1, freeBytes (free + 8 + p.2.1) p.2.2))

/-- What the module keeps of a save.
DESIGN CHOICE, unsafe: assumption 33. -/
def State.imageOf (s : State) (ctx : Nat) (saved : List Nat) : Image :=
  let c := s.ctx ctx
  let keep := fun (t : Nat) => !c.compact || liveTile c.live (s.handleAt t)
  { stamp := s.ctl.free + 1, area := c.saveArea, ctx := ctx, compact := c.compact, pieces := [], records := (0, 0), c := c, saved := saved,
    cores := s.cores.map (fun (p : Nat × Core) => (p.1, p.2.part ctx)),
    mesh := s.mesh.filter (fun p => p.2.kept ctx),
    lathes := (s.lathes.filter (fun p => p.2.ofCtx ctx)).map (fun (p : Nat × Lathe) => (p.1, p.2.saved p.1 c.compact c.live)),
    tiles := ((s.tilesOfCtx ctx).filter keep).map s.saveTile,
    fifos := s.lathes.map (fun (p : Nat × Lathe) => (p.1, { entries := p.2.fifo.entries.filter (fun q => q.ctx == ctx), stall := p.2.fifo.stall }))
    versions := s.slices.flatMap (fun p => (p.2.dir.filter (fun v => v.ctx == ctx)).map (fun v => (p.1, v))),
    launches := s.launches.filter (fun p => launchOfCtx ctx p.1),
    bal := s.clusters.filterMap (fun p => (Map.find? p.2.bal ctx).map (fun b => (p.1, b))),
    scalest := s.clusters.filterMap (fun p => (Map.find? p.2.scalest ctx).map (fun b => (p.1, b))) }

/-- The slots of a context are written to the records of section 3. -/
def State.spillAll (s : State) (ks : List Nat) (first : Nat) : State :=
  ((numsFrom 0 ks.length).zip ks).foldl (fun t p => t.spillTo p.2 (first + 512 * p.1) false) s

/-- The threads whose restore messages have not been admitted: identity and record. -/
def State.sentRecords (s : State) (ctx : Nat) : List (Nat × List Byte) :=
  ((s.ctx ctx).spilled.filter (fun p => p.2.sent)).map (fun p => (p.1, Memory.readBytes s.hbm p.2.addr 512))

/-- Their records are written behind those of the slots. -/
def State.moveRecords (s : State) (ctx first : Nat) (rs : List (Nat × List Byte)) : State :=
  ((numsFrom 0 rs.length).zip rs).foldl (fun t p =>
    let a := first + 512 * p.1
    let c := t.ctx ctx
    let q := Map.get c.spilled p.2.1 { addr := a, core := 0, slot := 0 }
    (t.hbmWrite a p.2.2).setCtx ctx { c with spilled := Map.set c.spilled p.2.1 { q with addr := a, sent := false } }) s

/-- The slot records of a save: slots, and threads on their way back. -/
def State.recordCount (s : State) (ctx : Nat) : Nat := (s.slotsOf ctx).length + (s.sentRecords ctx).length

/-- The spilled threads of a context leave their waiter entries; an `nwait` that a write has met stays met (R148). -/
def State.watchersLeave (s : State) (ctx : Nat) : State :=
  let mine := fun (e : WaitEntry) => match e.who with
    | .spilled n _ => n == ctx
    | .slot _ => false
  let c := s.ctx ctx
  let spilled := c.spilled.map (fun (p : Nat × Spilled) =>
    (p.1, { p.2 with met := p.2.met || (s.waiterOf (.spilled ctx p.1)).any (·.met) }))
  (s.setCtx ctx { c with spilled := spilled }).mapWaiters (fun l => l.filter (fun e => !mine e))

/-- The save is written: the context is SAVED, and what it held is released.
DESIGN CHOICE, unsafe: assumption 33. -/
def State.writeSave (s : State) (ctx : Nat) : State :=
  let c := s.ctx ctx
  let area := c.saveArea
  let ks := s.slotsOf ctx
  let rs := s.sentRecords ctx
  let count := s.recordCount ctx
  let lens := sectionLengths s.ctl.free count
  let n := (sectionOffsets lens 0x2010000).getD 3 0
  let ps := savePieces s.ctl.free count c.compact
  let s1 := ks.foldl (fun t k => t.takesBack k) s
  let im := s1.imageOf ctx (ks.map (fun k => (s.slot k).tid) ++ rs.map (·.1))
  let s2 := (s1.tilesOfCtx ctx).foldl (fun t k => t.setTile k { gen := (t.tile k).gen }) s1
  let s3 := ps.foldl (fun t p => t.hbmWrite (area + p.1) p.2) (s2.withdraw ctx)
  let s4 := ((s3.spillAll ks (area + n)).moveRecords ctx (area + n + 512 * ks.length) rs).watchersLeave ctx
  let done := { im with c := s4.ctx ctx, pieces := ps, records := (n, 512 * count) }
  let s5 := s4.setCtx ctx { s4.ctx ctx with st := .saved, status := 0, live := [], image := im.stamp }
  { s5 with images := done :: s5.images, ctl := { s5.ctl with free := s5.ctl.free + 16 + lens.sum } }

/-- SAVE_WRITTEN. An image that would pass the end of module HBM faults the context (R72), and what SAVING stopped stays stopped until the
context runs again (R76). -/
def State.saveWritten (s : State) (ctx : Nat) : State :=
  let c := s.ctx ctx
  match c.st with
  | .saving =>
    let s0 := (s.lathes.map (·.1)).foldl (fun t l => if (t.lathe l).ofCtx ctx then (t.settle l).duePosts l else t) s
    match s0.drainCtx ctx with
    | (s1, some _) => s1
    | (s1, none) =>
      if !s1.saveReady ctx then s1
      else if s.inMap c.saveArea (0x2010000 + (sectionLengths s1.ctl.free (s1.recordCount ctx)).sum) then s1.writeSave ctx
      else s1.setCtx ctx { s1.ctx ctx with st := .faulted, status := 4, live := [] }
  | _ => s

def execSaveWritten (s : State) : Out := .next (s.saveWritten s.ctl.at_.ctx)

/-! ### RESTORING (R77, R339) -/

/-- The image is what the memory at an area holds. The slot records are read from there, as direct writes have left them (R117, R337). -/
def State.imageAt (s : State) (area : Nat) (im : Image) : Bool :=
  s.inMap (area + im.records.1) im.records.2 && !s.poisoned (area + im.records.1) im.records.2
  && im.pieces.all (fun p => s.inMap (area + p.1) p.2.length && Memory.readBytes s.hbm (area + p.1) p.2.length == p.2
    && !s.poisoned (area + p.1) p.2.length)

/-- The image at an area: one written there, before one that software has copied there.
DESIGN CHOICE, unsafe: assumption 33. -/
def State.findImage (s : State) (area : Nat) : Option Image :=
  match s.images.find? (fun im => im.area == area && s.imageAt area im) with
  | some im => some im
  | none => s.images.find? (fun im => s.imageAt area im)

/-- Something that the image claims is held: a Lathe, a tile index, a granule, a core's window.
DESIGN CHOICE, unsafe: assumption 33. -/
def State.claimsHeld (s : State) (im : Image) : Bool :=
  im.lathes.any (fun p => (s.lathe p.1).bound.isSome)
  || im.tiles.any (fun t => (s.tile t.key).st != .free || (s.tilesOf (t.key / 1024)).any (fun p => p.2.shape.meets t.tile.shape)
      || s.fenced (t.key / 1024))
  || im.cores.any (fun p => p.2.winOwner.isSome && (s.core p.1).winOwner.isSome)

/-- A launch's number under another context index. -/
def reindex (ctx id : Nat) : Nat := id / 64 * 64 + ctx

/-- A sender that belongs to the context, under its index. -/
def Sender.reindexed (x : Sender) (ctx : Nat) : Sender :=
  match x with
  | .thread _ tid => .thread ctx tid
  | .device _ => .device ctx
  | y => y

/-- A message of the context under its index. -/
def Msg.reindexed (m : Msg) (ctx : Nat) : Msg :=
  { m with ctx := ctx, room := false, launch := m.launch.map (reindex ctx), src := m.src.reindexed ctx }

/-- A request under another index. -/
def Request.reindexed (q : Request) (ctx : Nat) : Request := { q with ctx := ctx, launch := q.launch.map (reindex ctx) }

/-- A saved thread under another index and, where its record is part of the image, at its new place. -/
def Spilled.reindexed (p : Spilled) (ctx : Nat) (moved : Bool) (im : Image) (area : Nat) : Spilled :=
  { p with addr := if moved then p.addr - im.area + area else p.addr, launch := p.launch.map (reindex ctx), sent := moved || p.sent,
           rest := { p.rest with ctx := ctx, launch := p.rest.launch.map (reindex ctx) } }

/-- The context that a restore brings back at an index; `same`: the index still holds what was saved there. -/
def Image.context (im : Image) (ctx area : Nat) (old : Ctx) (pins : Map Nat) (same : Bool) : Ctx :=
  { im.c with
    addr := old.addr, st := .running, status := 0, live := [], image := 0, before := .free, away := false
    spilled := im.c.spilled.map (fun (p : Nat × Spilled) =>
      let q := p.2.reindexed ctx (im.saved.contains p.1) im area
      (p.1, if pins.isEmpty then { q with rest := { q.rest with pfx := none } } else q))
    recs := im.c.recs.map (fun r => ({ r.1 with ctx := ctx }, r.2))
    frames := old.frames, puOvf := old.puOvf, pevictRes := old.pevictRes, inv := old.inv
    pages := if same then old.pages else []
    pins := pins }

/-- A FIFO has room for the requests that it takes back: a restore waits until it has.
DESIGN CHOICE, unsafe: assumption 86. -/
def Fifo.takes (x p : Fifo) : Bool := decide (x.entries.length + p.entries.length ≤ 16)

/-- Every FIFO has room for what an image holds for it (R91).
DESIGN CHOICE, unsafe: assumption 86. -/
def State.fifosTake (s : State) (im : Image) : Bool :=
  im.cores.all (fun p => (s.core p.1).fifo.takes p.2.fifo) && im.fifos.all (fun p => (s.lathe p.1).fifo.takes p.2)

/-- A FIFO takes back its requests and its counter. -/
def Fifo.restored (x p : Fifo) (ctx : Nat) : Fifo :=
  { x with entries := x.entries ++ p.entries.map (fun q => q.reindexed ctx), stall := p.stall }

/-- A message that a restore brings back waits at its core, in inbox or ring, or in the mesh while the ring has no room (R91, R97).
DESIGN CHOICE, unsafe: assumption 86. -/
def State.backAt (s : State) (n : Nat) (m : Msg) : State :=
  let c := s.core n
  if s.noRoom n m.ctx then s.setCore n { c with meshWait := c.meshWait ++ [m] } else s.waitAt n m

/-- A core takes back what it held; its waiting messages wait again, in their order. -/
def State.restoreCore (s : State) (ctx n : Nat) (p : Core) : State :=
  let c := s.core n
  let re := fun (l : List Msg) => l.map (fun m => m.reindexed ctx)
  let deque := p.deque.map (fun t => { t with launch := reindex ctx t.launch })
  let s1 := s.setCore n { c with
    deque := c.deque ++ deque
    winOwner := if c.winOwner.isSome then c.winOwner else p.winOwner.map (reindex ctx)
    fifo := c.fifo.restored p.fifo ctx }
  let s2 := (re (p.inbox ++ p.ring ++ p.meshWait)).foldl (fun t m => t.backAt n m) s1
  match p.winOwner.bind (fun id => Map.find? s.launches (reindex ctx id)) with
  | some l => (s2.fillWindow l (clusterOf n) (n % 16) false).wakeThieves (n / 1024)
  | none => s2

/-- A Lathe is bound again. -/
def State.restoreLathe (s : State) (ctx n : Nat) (p : Lathe) : State :=
  let x := s.lathe n
  let y := { p with
    bound := p.bound.map (reindex ctx), ctx := ctx, nextIssue := s.cycle, turnAt := x.turnAt, reads := x.reads, lastMat := x.lastMat
    fifo := x.fifo
    trap := p.trap.map (fun (t : LTrap) => { t with rec_ := { t.rec_ with ctx := ctx } }) }
  let s1 := s.setLathe n y
  match y.bound.bind (fun id => Map.find? s1.launches id) with
  | some l => s1.fillWindow l (n / 4) (n % 4) true
  | none => s1

/-- A Lathe's FIFO takes back its requests, whether the Lathe is bound or was released (Table 19-1). -/
def State.restoreFifo (s : State) (ctx n : Nat) (p : Fifo) : State :=
  let x := s.lathe n
  s.setLathe n { x with fifo := x.fifo.restored p ctx }

/-- A tile returns to its index, generation and footprint; its chime counts on. -/
def State.restoreTile (s : State) (ctx : Nat) (t : SavedTile) : State :=
  let lo := spAddr (t.key / 1024) t.tile.shape.base
  let n := t.tile.shape.stop - t.tile.shape.base
  let x : Tile := { t.tile with ctx := ctx }
  let s1 := s.setTile t.key (x.thaw s.cycle)
  { s1 with
    sp := t.bytes.foldl (fun m p => Memory.writeByte m (p.1 + lo) p.2)
            (s1.sp.filter (fun p => !(decide (lo ≤ p.1) && decide (p.1 < lo + n))))
    views := s1.views.filter (fun p => !(decide (lo ≤ p.1) && decide (p.1 < lo + n)))
    spPoison := s1.spPoison.filter (fun q => !(decide (lo ≤ 32 * q) && decide (32 * q < lo + n))) ++ t.lost.map (fun q => q + lo / 32) }

/-- R141: barriers that another index owned for the context become the new index's. -/
def Barrier.moves (b : Barrier) (old new : Nat) : Barrier :=
  { b with owner := b.owner.map (fun c => if c = old then new else c), done := b.done.map (fun r => if r.ctx = old then { r with ctx := new } else r) }

/-- A barrier that a context leaves: its partial result and waiters go, its phase stays (Table 10-2). -/
def Barrier.left (b : Barrier) (ctx : Nat) : Barrier :=
  let done := b.done.filter (fun r => r.ctx != ctx)
  if b.owner = some ctx then { phase := b.phase, done := done } else { b with done := done }

/-- Every barrier of the module, changed. -/
def State.mapBarriers (s : State) (f : Barrier → Barrier) : State :=
  let all := fun (m : Map Barrier) => m.map (fun (p : Nat × Barrier) => (p.1, f p.2))
  { s with clusters := s.clusters.map (fun (p : Nat × Cluster) => (p.1, { p.2 with barriers := all p.2.barriers }))
           dieBarriers := s.dieBarriers.map (fun (p : Nat × Map Barrier) => (p.1, all p.2))
           modBarriers := all s.modBarriers }

/-- The balances and scale bits of the context return to their clusters. -/
def State.restoreClusters (s : State) (ctx : Nat) (im : Image) : State :=
  let s1 := im.bal.foldl (fun (t : State) p => t.setBalances p.1 ctx p.2) s
  im.scalest.foldl (fun (t : State) p => let c := t.cluster p.1
                                         t.setCluster p.1 { c with scalest := Map.set c.scalest ctx p.2 }) s1

/-- The restore messages of the saved slots leave for their cores. -/
def State.sendSaved (s : State) (ctx : Nat) (im : Image) : State :=
  im.saved.foldl (fun t tid => match Map.find? (t.ctx ctx).spilled tid with
    | some p => t.sendRestore ctx tid p
    | none => t) s

/-- A slice's directory makes room for k entries (R160). -/
def State.roomFor (s : State) (cluster n k : Nat) : Nat → State × Option Stuck
  | 0 => (s, none)
  | f + 1 =>
    if (s.slice n).dir.length + k ≤ 2048 then (s, none)
    else match s.moveOldest n cluster with
      | (t, none) => t.roomFor cluster n k f
      | r => r

/-- The directories make room for the versions of an image, slice by slice: older entries move to the log, as for a write (R160, R162).
DESIGN CHOICE, unsafe: assumption 33. DESIGN CHOICE, unsafe: assumption 92. -/
def State.dirsTake (s : State) (im : Image) : State × Option Stuck :=
  ((im.versions.map (·.1)).eraseDups).foldl (fun r n => match r.2 with
    | some _ => r
    | none => r.1.roomFor (clusterOf im.c.trapc) n (im.versions.filter (fun p => p.1 == n)).length 2048) (s, none)

/-- Versions return to the directories of their slices (R162), in which they come to the least recently used end, in their order.
DESIGN CHOICE, unsafe: assumption 91. -/
def State.takeVersions (s : State) (ctx : Nat) (vs : List (Nat × Version)) : State :=
  vs.foldl (fun t p => let x := t.slice p.1
                       t.setSlice p.1 { x with dir := x.dir ++ [{ p.2 with ctx := ctx }] }) s

/-- A part that dispatch holds for a core is pushed if the core's window is free by now (R102). -/
def State.pushRestored (s : State) (im : Image) : State :=
  ((im.launches.flatMap (fun p => p.2.held.map (·.core))).eraseDups).foldl (fun t n => t.refreshWindow n) s

/-- The image is brought back at an index. A context that was saved there, and is not the one that comes back, leaves its barriers.
DESIGN CHOICE, unsafe: assumption 33. -/
def State.bringBack (s : State) (ctx area : Nat) (im : Image) : State :=
  let o := s.ctx im.ctx
  let stillSaved : Bool := o.image == im.stamp
  let away : Bool := stillSaved && im.ctx != ctx
  let same : Bool := im.ctx == ctx && stillSaved
  let r := if same then s else s.mapBarriers (fun b => b.left ctx)
  let s0 := if away then (r.setCtx im.ctx { o with pins := [] }).mapBarriers (fun b => b.moves im.ctx ctx) else r
  let s1 := s0.setCtx ctx (im.context ctx area (s0.ctx ctx) (if stillSaved then o.pins else []) same)
  let t := s1.takeVersions ctx im.versions
  let s2 := { t with
    launches := im.launches.foldl (fun (m : Map Launch) (p : Nat × Launch) => Map.set m (reindex ctx p.1) { p.2 with ctx := ctx }) t.launches
    mesh := t.mesh ++ im.mesh.map (fun (p : Nat × Msg) => (p.1, p.2.reindexed ctx)) }
  let s3 := im.cores.foldl (fun t p => t.restoreCore ctx p.1 p.2) s2
  let s4 := im.lathes.foldl (fun t p => t.restoreLathe ctx p.1 p.2) s3
  let s5 := im.fifos.foldl (fun t p => t.restoreFifo ctx p.1 p.2) s4
  let s6 := im.tiles.foldl (fun t p => t.restoreTile ctx p) s5
  ((s6.restoreClusters ctx im).sendSaved ctx im).pushRestored im

/-- RESTORE_COMPLETE. A directory or a FIFO that has no room holds the restore up. -/
def State.restoreComplete (s : State) (ctx : Nat) : State :=
  let c := s.ctx ctx
  match c.st with
  | .restoring =>
    match s.findImage c.saveArea with
    | none => s.setCtx ctx { c with st := c.before, status := 4 }
    | some im =>
      if s.claimsHeld im then s.setCtx ctx { c with st := c.before, status := 5 }
      else if !s.fifosTake im then s
      else match s.dirsTake im with
        | (t, none) => t.bringBack ctx c.saveArea im
        | (t, some w) => t.stuckAt w
  | _ => s

def execRestoreComplete (s : State) : Out := .next (s.restoreComplete s.ctl.at_.ctx)

/-! ### TEARDOWN (R78) -/

/-- Table 12-7: a fill or a writeback is in progress. A fill that has no frame yet is not: it goes with its context.
DESIGN CHOICE, unsafe: assumption 104. -/
def State.pagesBusy (s : State) (ctx : Nat) : Bool :=
  (s.ctx ctx).pages.any (fun p => (p.2.st == .filling && p.2.frame.isSome) || p.2.st == .writing)

/-- A slot of the context becomes FREE, with nothing left of it. -/
def State.tearSlot (s : State) (k : Nat) : State := ((s.forgetWriter k).leaveWaits k).setSlot k {}

/-- R332: every trap record of the context is retired. -/
def State.retireAll (s : State) (ctx : Nat) : State :=
  let base := (s.ctx ctx).saveb * 4096
  let s1 := (numsFrom 0 256).foldl (fun t i =>
    let a := base + 0x1000 + 64 * i + 32
    let w := t.hbmRead a 8
    if w.testBit 63 then t.hbmWriteNat a 8 (w - 2 ^ 63) else t) s
  s1.hbmWriteNat (base + 0x18) 8 (s1.hbmRead (base + 0x18) 8 % 256)

/-- The requests of a context that have not completed are marked as not performed (R78). What a completed one reports stays.
DESIGN CHOICE, unsafe: assumption 78. -/
def Fifo.undone (x : Fifo) (ctx : Nat) : Fifo :=
  { x with pushed := x.pushed.map (fun p => if p.ctx = ctx ∧ !p.complete then { p with discarded := true } else p) }

/-- The units forget what the context left with them. -/
def State.forgetCtx (s : State) (ctx : Nat) : State :=
  { s with
    cores := s.cores.map (fun (p : Nat × Core) => (p.1, { p.2 with
      fifo := p.2.fifo.undone ctx
      directWrites := p.2.directWrites.filter (fun w => w.ctx != ctx)
      gather := p.2.gather.filter (fun e => e.ctx != ctx) }))
    lathes := s.lathes.map (fun (p : Nat × Lathe) => (p.1, { p.2 with fifo := p.2.fifo.undone ctx }))
    clusters := s.clusters.map (fun (p : Nat × Cluster) => (p.1, { p.2.without (fun x => x.req.ctx == ctx) with
      pb := p.2.pb.filter (fun e => e.ctx != ctx) }))
    links := { s.links with
      egress := s.links.egress.filter (fun e => e.ctx != ctx)
      reqs := s.links.reqs.map (fun r => if r.ctx = ctx then { r with who := .discard } else r) } }

/-- What an index keeps when its context goes: CCTL's addr, the fields of LQSTAT and PUSTAT that only a write changes (R4), and TLBINV and
PEVICT; an eviction that had not committed is abandoned.
DESIGN CHOICE, unsafe: assumption 81. -/
def Ctx.torn (c : Ctx) : Ctx :=
  { addr := c.addr, queues := c.queues.map (fun (p : Nat × LaunchQueue) => (p.1, p.2.flushed p.2.en)), puOvf := c.puOvf, inv := c.inv,
    pevictRes := if c.pevictRes = 1 then 3 else c.pevictRes }

/-- A context goes: what it held is released, and its index is FREE.
DESIGN CHOICE, unsafe: assumption 33. -/
def State.tearCtx (s : State) (ctx : Nat) : State :=
  let c := s.ctx ctx
  let s1 := { s with cores := s.cores.map (fun (p : Nat × Core) => (p.1, { p.2 with gather := p.2.gather.filter (fun e => e.ctx != ctx || e.hyp == 0) })) }
  let s2 := (s1.drainCtx ctx).1
  let s3 := (s2.slotsOf ctx).foldl (fun t k => t.tearSlot k) s2
  let s4 := (s3.tilesOfCtx ctx).foldl (fun t k => t.freeTile k) s3
  let s5 := ((s4.retireAll ctx).setCtx ctx c.torn).forgetCtx ctx
  let s6 := ((s5.withdraw ctx).watchersLeave ctx).mapBarriers (fun b => b.left ctx)
  s6.spillCommand

/-- R78: the hypotheses of the context are refuted; whether none of their versions is left (R112, R160).
DESIGN CHOICE, unsafe: assumption 92. -/
def State.tearHyps (s : State) (ctx : Nat) : State × Bool :=
  let c := s.ctx ctx
  (c.hyps.map (·.1)).foldl (fun r id => let q := r.1.dropVersions (clusterOf c.trapc) ctx id
                                        (q.1, r.2 && q.2)) (s, true)

/-- TEARDOWN_COMPLETE. -/
def State.teardownComplete (s : State) (ctx : Nat) : State :=
  match (s.ctx ctx).st with
  | .teardown =>
    if s.pagesBusy ctx then s
    else match s.tearHyps ctx with
      | (t, true) => t.tearCtx ctx
      | (t, false) => t
  | _ => s

def execTeardownComplete (s : State) : Out := .next (s.teardownComplete s.ctl.at_.ctx)

end Sys2Proof.Machine
end

