-- ==== Sys2Proof/Machine/Launch.lean ====
section
/-! DEFINITION. Launch queues and dispatch: posts, the reading and checking of records and headers, dependences, placement, and the
Tempo periods (R79 to R84, R92, R99 to R102, R110, R111). -/

namespace Sys2Proof.Machine

/-! ### Posts (R92) -/

def State.lqueue (s : State) (ctx q : Nat) : LaunchQueue := Map.get (s.ctx ctx).queues q {}

def State.setLqueue (s : State) (ctx q : Nat) (x : LaunchQueue) : State :=
  let c := s.ctx ctx
  s.setCtx ctx { c with queues := Map.set c.queues q x }

/-- The host posts a record: it enters the queue, or is dropped and sets ovf. -/
def State.lqPost (s : State) (ctx q : Nat) (rec_ : Word64) : State :=
  let x := s.lqueue ctx q
  let bad : Bool := bitsOf rec_.toNat 63 56 != 0 || bitsOf rec_.toNat 5 0 != 0 || !s.ctxRuns ctx || decide (64 ≤ x.entries.length) || !x.parked.isEmpty
  if bad then s.setLqueue ctx q { x with ovf := true }
  else s.setLqueue ctx q { x with entries := x.entries ++ [{ rec_ := rec_, stamp := s.cycle }] }

def execLqpost (ctx : BitVec 6) (q : BitVec 4) (rec_ : BitVec 64) (s : State) : Out := s.whenReady (s.lqPost ctx.toNat q.toNat rec_)

/-! ### Reads of dispatch (R80, R372) -/

/-- The cluster whose TLB and egress dispatch uses for a context: that of its trap core.
DEDUCED, unsafe: assumption 50. -/
def State.launchCluster (s : State) (ctx : Nat) : Nat := clusterOf (s.ctx ctx).trapc

/-- An answer for the head of a queue has not come. -/
def State.launchAsks (s : State) (ctx q : Nat) : Bool :=
  s.links.reqs.any (fun r => r.who == .launch ctx q) || s.links.egress.any (fun e => e.who == .launch ctx q)

/-- Reads n bytes, within one 64-byte block, of the global window in user mode under hypothesis 0. The fault address of a read that fails is
its first byte.
DESIGN CHOICE, unsafe: assumption 99. -/
def State.launchRead (s : State) (ctx q va n : Nat) : State × CRes (List Byte) :=
  match windowOf va with
  | .global =>
    match s.engineXlate (.queue ctx q) (s.launchCluster ctx) ctx va .read true false with
    | (s1, .fault r) => (s1, .bad 0 va r)
    | (s1, .ok e pa) =>
      match tgtOf e pa with
      | .sp _ => (s1, .bad 0 va 0)
      | .hbm a => if s1.poisoned a n then (s1, .bad 0 va 6) else (s1, .ok (s1.visBytes ctx 0 a n))
      | .host a => if s1.hostFails a n then (s1, .bad 0 va 5) else (s1, .ok (Memory.readBytes s1.host a n))
      | .remote rmod a =>
        match (s1.lqueue ctx q).fetched.find? (fun f => f.rmod == rmod && f.pa == a) with
        | some f => if f.status ≠ 0 then (s1, .bad f.status va 5) else (s1, .ok (f.bytes.take n))
        | none =>
          if s1.launchAsks ctx q then (s1, .wait)
          else (s1.egress (s1.launchCluster ctx) ctx { op := 2, dst := rmod, src := s1.links.lmod, len := n - 1, addr := a }
                  (.launch ctx q), .wait)
    | (s1, _) => (s1, .wait)
  | _ => (s, .bad 0 va 1)

/-- Reads pieces in turn and joins them.
DEDUCED, unsafe: assumption 50. -/
def State.launchReads (s : State) (ctx q : Nat) : List (Nat × Nat) → State × CRes (List Byte)
  | [] => (s, .ok [])
  | p :: r => cThen (s.launchRead ctx q p.1 p.2) (fun s bs => cThen (s.launchReads ctx q r) (fun s cs => (s, .ok (bs ++ cs))))

/-- The pieces of n bytes from a va, each within one 64-byte block. -/
def readPieces : Nat → Nat → Nat → List (Nat × Nat)
  | 0, _, _ => []
  | f + 1, va, n => if n = 0 then [] else let k := min n (64 - va % 64)
                                          (va, k) :: readPieces f (va + k) (n - k)

/-- What dispatch has read for a head is dropped. -/
def State.dropReads (s : State) (ctx q : Nat) : State := s.setLqueue ctx q { s.lqueue ctx q with fetched := [] }

/-! ### Records (R79 to R82, Tables 5-1, 5-2) -/

/-- Word i of a byte list. -/
def wordOf (bs : List Byte) (i : Nat) : Nat := leNat ((bs.drop (8 * i)).take 8)

/-- The launch that a record and its header describe. -/
def launchOf (rec_ : Word64) (r h : List Byte) : LaunchRec :=
  let w := wordOf r
  let hd := leNat h
  let nf := bitsOf (w 1) 63 61
  { rec_ := rec_, kimg := w 0, nf := nf, tcls := bitOf (w 1) 60, prio := bitsOf (w 1) 59 56, lmask := bitsOf (w 1) 55 52,
    dmask := bitsOf (w 1) 51 48, cmask := w 2,
    widths := (numsFrom 0 nf).map (fun i => bitsOf (w 1) (35 - 6 * i) (30 - 6 * i) + 1),
    exts := (numsFrom 0 nf).map (fun i => w (3 + i) + 1),
    dep0 := w 9, dep1 := w 11, thr0 := w 10, thr1 := w 12, done := w 13,
    args := (numsFrom 14 6).map (fun i => BitVec.ofNat 64 (w i)),
    csize := bitsOf hd 463 448, coff := bitsOf hd 447 416, sentry := bitsOf hd 415 384, soff := bitsOf hd 351 320,
    lentry := bitsOf hd 319 288, loff := bitsOf hd 255 224 }

/-- The placed clusters, die-major (R101).
DEDUCED, unsafe: assumption 59. -/
def State.placed (s : State) (r : LaunchRec) : List Nat :=
  (numsFrom 0 256).filter (fun c => r.dmask.testBit (c / 64) && r.cmask.testBit (c % 64) && !s.fenced c)

/-- An address is 0, or a multiple of 8 in the global window. -/
def wordAddrOk (a : Nat) : Bool := a == 0 || (a % 8 == 0 && windowOf a == .global)

/-- The record's own checks (R80 to R82). The width and extent of a field from nf on, which Table 5-2 says are zero, are checked too.
DEDUCED, unsafe: assumption 98. -/
def State.recordOk (s : State) (r : LaunchRec) (bs : List Byte) : Bool :=
  let w := wordOf bs
  decide (1 ≤ r.nf ∧ r.nf ≤ 6) && bitsOf (w 1) 47 36 == 0 && (numsFrom 20 4).all (fun i => w i == 0)
  && (numsFrom r.nf (6 - r.nf)).all (fun i => bitsOf (w 1) (35 - 6 * i) (30 - 6 * i) == 0 && w (3 + i) == 0)
  && decide (r.widths.sum ≤ 64) && (r.widths.zip r.exts).all (fun p => decide (p.2 ≤ 2 ^ p.1))
  && !(s.placed r).isEmpty && wordAddrOk r.dep0 && wordAddrOk r.dep1 && wordAddrOk r.done

/-- kimg is 64-byte aligned and lies in the global window. -/
def kimgOk (k : Nat) : Bool := k % 64 == 0 && windowOf k == .global

/-- The header's checks (R79, R82). With no Lathe code, `loff` and `lentry` are not looked at.
DESIGN CHOICE, unsafe: assumption 76. -/
def headerOk (r : LaunchRec) (h : List Byte) : Bool :=
  let hd := leNat h
  let lsize := bitsOf hd 287 256
  bitsOf hd 511 480 == 0x4A4D4B31 && bitsOf hd 479 472 == 1 && bitsOf hd 471 464 == 0 && bitsOf hd 223 0 == 0
  && decide (r.csize ≤ 248) && r.coff % 4 == 0
  && r.soff % 64 == 0 && r.sentry % 4 == 0 && decide (r.sentry < bitsOf hd 383 352)
  && (lsize == 0 || (r.loff % 64 == 0 && r.lentry % 4 == 0 && decide (r.lentry < lsize)))
  && (r.lmask == 0 || lsize != 0)

/-! ### The head of a queue (R80, R82, R83) -/

/-- The head record leaves its queue, and a parked launcher takes the entry that frees (R92). -/
def State.popHead (s : State) (ctx q : Nat) : State :=
  let x := s.lqueue ctx q
  let s1 := (s.setLqueue ctx q { x with entries := x.entries.drop 1, head := none, fetched := [] }).dropAnswers (fun w => w == .launch ctx q)
  let s1 := s1.walkForgets (.queue ctx q)
  s1.admitLaunchers ctx q x.parked.length

/-- LAUNCH_FAULT: the launch is discarded. The record carries the reason and no link status.
DESIGN CHOICE, unsafe: assumption 76. -/
def State.launchFault (s : State) (ctx q reason faddr : Nat) : State :=
  match (s.lqueue ctx q).entries.head? with
  | some e => (s.popHead ctx q).ctxTrap ctx 32 reason (BitVec.ofNat 64 faddr) e.rec_
  | none => s

/-- The record and its header; none: kimg names no image that can be read. -/
def State.readHead (s : State) (ctx q : Nat) (rec_ : Word64) : State × CRes (List Byte × Option (List Byte)) :=
  cThen (s.launchReads ctx q (readPieces 4 rec_.toNat 192)) (fun s r =>
    if kimgOk (wordOf r 0) then
      cThen (s.launchReads ctx q (readPieces 2 (wordOf r 0) 64)) (fun s h => (s, .ok (r, some h)))
    else (s, .ok (r, none)))

/-- LAUNCH_HEAD_READ: dispatch serves the queue, and a record that it has not read is at its head. -/
def State.headRead (s : State) (ctx q : Nat) : State :=
  let x := s.lqueue ctx q
  match x.en && s.ctxRuns ctx && x.head.isNone, x.entries with
  | true, e :: _ =>
    match s.readHead ctx q e.rec_ with
    | (s1, .wait) => s1
    | (s1, .bad _ fa re) => s1.launchFault ctx q re fa
    | (s1, .ok (_, none)) => s1.launchFault ctx q 0 0
    | (s1, .ok (r, some h)) =>
      let l := launchOf e.rec_ r h
      if s1.recordOk l r && headerOk l h then
        let y := s1.lqueue ctx q
        s1.setLqueue ctx q { y with head := some { l with met0 := l.dep0 == 0, met1 := l.dep1 == 0 }, fetched := [] }
      else s1.launchFault ctx q 0 0
  | _, _ => s

def execLaunchHeadRead (s : State) : Out := .next (s.headRead s.ctl.at_.ctx s.ctl.at_.q)

/-- A dependence that has not been met is read: met, not met, or a fault. -/
def State.depRead (s : State) (ctx q va thr : Nat) (met : Bool) : State × CRes Bool :=
  if met then (s, .ok true) else cThen (s.launchRead ctx q va 8) (fun s bs => (s, .ok (decide (thr ≤ leNat bs))))

/-- What dispatch knows of the head of a queue. -/
def State.setHead (s : State) (ctx q : Nat) (l : LaunchRec) : State := s.setLqueue ctx q { s.lqueue ctx q with head := some l }

/-- DEPENDENCE_POLL: a dependence that has been met is not read again (R83). That dispatch skips the queue (en = 0) makes no difference.
DESIGN CHOICE, unsafe: assumption 84. -/
def State.depPoll (s : State) (ctx q : Nat) : State :=
  match (s.lqueue ctx q).head with
  | none => s
  | some l =>
    if !s.ctxRuns ctx then s
    else
      match s.depRead ctx q l.dep0 l.thr0 l.met0 with
      | (s1, .wait) => s1
      | (s1, .bad _ fa re) => s1.launchFault ctx q re fa
      | (s1, .ok a) =>
        match s1.depRead ctx q l.dep1 l.thr1 l.met1 with
        | (s2, .wait) => s2.setHead ctx q { l with met0 := a }
        | (s2, .bad _ fa re) => s2.launchFault ctx q re fa
        | (s2, .ok b) =>
          let s3 := s2.setHead ctx q { l with met0 := a, met1 := b }
          s3.dropReads ctx q

def execDependencePoll (s : State) : Out := .next (s.depPoll s.ctl.at_.ctx s.ctl.at_.q)

/-! ### Dispatch (R84, R99 to R102, R110) -/

/-- The Lathes that a launch binds. -/
def State.lathesFor (s : State) (r : LaunchRec) : List Nat :=
  (s.placed r).flatMap (fun c => ((numsFrom 0 4).filter (fun n => r.lmask.testBit n)).map (fun n => 4 * c + n))

/-- R83: the head of a queue is eligible. -/
def State.headEligible (s : State) (ctx : Nat) (x : LaunchQueue) (r : LaunchRec) : Bool :=
  x.en && s.ctxRuns ctx && r.met0 && r.met1 && (s.lathesFor r).all (fun l => (s.lathe l).bound.isNone)

/-- The eligible heads: context, queue, order of R110. -/
def State.eligibleHeads (s : State) : List (Nat × Nat × LaunchRec × Nat) :=
  s.ctxs.flatMap (fun c => c.2.queues.filterMap (fun p =>
    match p.2.head, p.2.entries.head? with
    | some r, some e => if s.headEligible c.1 p.2 r then some (c.1, p.1, r, e.stamp) else none
    | _, _ => none))

/-- R110: a comes before b: context priority, launch priority, then the earlier post; the earlier in the list wins the rest.
DEDUCED, unsafe: assumption 50. -/
def State.headBefore (s : State) (a b : Nat × Nat × LaunchRec × Nat) : Bool :=
  let pa := (s.ctx a.1).prio
  let pb := (s.ctx b.1).prio
  if pa ≠ pb then decide (pb < pa)
  else if a.2.2.1.prio ≠ b.2.2.1.prio then decide (b.2.2.1.prio < a.2.2.1.prio)
  else decide (a.2.2.2 < b.2.2.2)

/-- The head that dispatch takes first.
DEDUCED, unsafe: assumption 50. -/
def State.firstHead (s : State) : Option (Nat × Nat × LaunchRec × Nat) :=
  s.eligibleHeads.foldl (fun best h => match best with
    | none => some h
    | some b => if s.headBefore h b then some h else some b) none

/-- A Lathe is bound (R84 step 1). -/
def State.bindLathe (s : State) (id : Nat) (l : Launch) (n : Nat) : State :=
  let x := s.lathe n
  let y : Lathe := { bound := some id, ctx := l.ctx, pc := codePc (l.r.kimg + l.r.loff + l.r.lentry), nextIssue := s.cycle,
                     hqWait := x.hqWait, hqStall := x.hqStall, fifo := x.fifo, reads := x.reads, lastMat := x.lastMat }
  ((s.walkForgets (.code n)).setLathe n y).fillWindow l (n / 4) (n % 4) true

/-- The part of a core: pushed, or held until its window is free (R102). A part that is held does not wake the core (R106).
DESIGN CHOICE, unsafe: assumption 100. -/
def State.placePart (s : State) (id : Nat) (h : HeldPart) : State :=
  match Map.find? s.launches id with
  | none => s
  | some l =>
    match (s.core h.core).winOwner with
    | some o => if o = id then s.pushPart id l h else { s with launches := Map.set s.launches id { l with held := l.held ++ [h] } }
    | none => s.pushPart id l h

/-- The parts of the cores of placed cluster j of p (R101, R102). -/
def clusterParts (r : LaunchRec) (p j c : Nat) : List HeldPart :=
  let e0 := r.exts.headD 1
  let s1 := (r.exts.drop 1).foldl (· * ·) 1
  let a := j * e0 / p * s1
  let m := ((j + 1) * e0 / p - j * e0 / p) * s1
  ((numsFrom 0 16).map (fun n => { core := 16 * c + n, first := a + n * m / 16, count := (n + 1) * m / 16 - n * m / 16 })).filter
    (fun h => h.count != 0)

/-- The parts of every core. -/
def launchParts (r : LaunchRec) (placed : List Nat) : List HeldPart :=
  ((numsFrom 0 placed.length).zip placed).flatMap (fun q => clusterParts r placed.length q.1 q.2)

/-- The launch is taken: Lathes bound, windows filled, items placed; the next record comes to the head. -/
def State.dispatchLaunch (s : State) (ctx q : Nat) (r : LaunchRec) (consts : List Word32) : State :=
  let c := s.ctx ctx
  let seq := c.seq + 1
  let id := seq * 64 + ctx
  let lathes := s.lathesFor r
  let l : Launch := { ctx := ctx, q := q, seq := seq, r := r, consts := consts, lathes := lathes }
  let parts := launchParts r (s.placed r)
  let s1 := ((s.setCtx ctx { c with seq := seq }).popHead ctx q).lapse ctx
  let s2 := { s1 with launches := Map.set s1.launches id l }
  let s3 := lathes.foldl (fun t n => t.bindLathe id l n) s2
  parts.foldl (fun t h => t.placePart id h) s3

/-- DISPATCH: the first eligible head is dispatched, once its constant image has been read. -/
def State.dispatch (s : State) : State :=
  match s.firstHead with
  | none => s
  | some (ctx, q, r, _) =>
    match s.launchReads ctx q (readPieces 64 (r.kimg + r.coff) (4 * r.csize)) with
    | (s1, .wait) => s1
    | (s1, .bad _ fa re) => s1.launchFault ctx q re fa
    | (s1, .ok bs) => s1.dispatchLaunch ctx q r ((numsFrom 0 r.csize).map (fun i => BitVec.ofNat 32 (leNat ((bs.drop (4 * i)).take 4))))

def execDispatch (s : State) : Out := .next s.dispatch

/-! ### Tempo (R111) -/

/-- The balances of a context at a period boundary. -/
def Budgets.renew (b : Budgets) (x : Balances) : Balances :=
  let up := fun (n : Nat) (v : Int) => min (v + n) (n : Int)
  { issue := up b.issue x.issue, chuck := up b.chuck x.chuck, link := up b.link x.link, car := up b.car x.car, evict := up b.evict x.evict }

/-- TEMPO_PERIOD: a period begins on a cycle that is a multiple of 4,096, once. -/
def State.tempoPeriod (s : State) : State :=
  if s.cycle % 4096 = 0 ∧ s.ctl.period < s.cycle / 4096 then
    { s with ctl := { s.ctl with period := s.cycle / 4096 }
             clusters := s.clusters.map (fun p => (p.1, { p.2 with bal := p.2.bal.map (fun b => (b.1, (s.ctx b.1).budgets.renew b.2)) })) }
  else s

def execTempoPeriod (s : State) : Out := .next s.tempoPeriod

end Sys2Proof.Machine
end

