-- ==== Sys2Proof/Machine/Links.lean ====
section
/-! DEFINITION. Korair Link ports, flits, packets, link requests and their answers, and the host attachment (R187 to R198). -/

namespace Sys2Proof.Machine

def State.port (s : State) (p : Nat) : Port := Map.get s.links.ports p {}
def State.setPort (s : State) (p : Nat) (x : Port) : State := { s with links := { s.links with ports := Map.set s.links.ports p x } }

/-- R188: only a port in UP or DEGRADED carries packets. -/
def Port.carries (x : Port) : Bool := x.st == .up || x.st == .degraded

/-! ### Flits and packets on the wire (R190, Tables 13-3, 13-4) -/

/-- One bit of CRC-64: polynomial 0x42F0_E1EB_A9EA_3693, not reflected. -/
def crcBit (c : Nat) : Nat := if c < 2 ^ 63 then 2 * c else (2 * c % 2 ^ 64) ^^^ 0x42F0E1EBA9EA3693

/-- CRC-64 over bytes, from a register value. -/
def crcBytes (c : Nat) : List Byte → Nat
  | [] => c
  | b :: r => crcBytes (crcBit (crcBit (crcBit (crcBit (crcBit (crcBit (crcBit (crcBit (c ^^^ b.toNat * 2 ^ 56))))))))) r

/-- The CRC of a flit: over bytes 0 to 247, initial value all ones, result inverted. -/
def flitCrc (body : List Byte) : Nat := 2 ^ 64 - 1 - crcBytes (2 ^ 64 - 1) body

/-- The number that slots form, the first lowest. -/
def slotsNat : List (BitVec 128) → Nat
  | [] => 0
  | x :: r => x.toNat + 2 ^ 128 * slotsNat r

/-- A flit: its head word, its slots, its CRC. -/
def flitOf (seq ack kind : Nat) (slots : List (BitVec 128)) : BitVec 2048 :=
  let body := seq % 4096 * 2 ^ 52 + ack % 4096 * 2 ^ 40 + kind * 2 ^ 36 + 2 ^ 64 * slotsNat slots
  BitVec.ofNat 2048 (body + 2 ^ 1984 * flitCrc (leBytes 248 body))

def flitSeq (f : BitVec 2048) : Nat := bitsOf f.toNat 63 52
def flitAck (f : BitVec 2048) : Nat := bitsOf f.toNat 51 40
def flitKind (f : BitVec 2048) : Nat := bitsOf f.toNat 39 36
def flitSlots (f : BitVec 2048) : List (BitVec 128) := (numsFrom 0 15).map (fun i => BitVec.ofNat 128 (f.toNat >>> (64 + 128 * i)))
def flitGood (f : BitVec 2048) : Bool := f.toNat >>> 1984 == flitCrc (leBytes 248 f.toNat)

/-- The slots of n bytes of payload. -/
def payloadSlots : Nat → List Byte → List (BitVec 128)
  | 0, _ => []
  | n + 1, bs => if bs.isEmpty then [] else BitVec.ofNat 128 (leNat (bs.take 16)) :: payloadSlots n (bs.drop 16)

/-- The header slot of a packet. -/
def Packet.header (p : Packet) : BitVec 128 :=
  BitVec.ofNat 128 (p.op % 64 * 2 ^ 58 + p.dst % 1024 * 2 ^ 48 + p.src % 1024 * 2 ^ 38 + p.ctx % 64 * 2 ^ 32 + p.len % 256 * 2 ^ 24
    + p.tag % 4096 * 2 ^ 12 + 2 ^ 64 * (p.flags % 256 * 2 ^ 56 + p.addr % 2 ^ 56))

/-- A packet as slots. -/
def Packet.slots (p : Packet) : List (BitVec 128) := p.header :: payloadSlots 16 p.pay

/-- The header fields of a slot. -/
def packetOf (h : BitVec 128) : Packet :=
  let v := h.toNat
  { op := bitsOf v 63 58, dst := bitsOf v 57 48, src := bitsOf v 47 38, ctx := bitsOf v 37 32, len := bitsOf v 31 24,
    tag := bitsOf v 23 12, flags := bitsOf v 127 120, addr := bitsOf v 119 64 }

/-- The status code that a RESP carries (R194): bits [2:0] in w1 [59:57], bit [3] in w1 [63]. -/
def Packet.status (p : Packet) : Nat := bitsOf p.flags 3 1 + 8 * bitsOf p.flags 7 7
/-- The flags of a RESP with a status. -/
def statusFlags (st : Nat) : Nat := st % 8 * 2 + st / 8 * 2 ^ 7

/-! ### Sending (R189, R190) -/

/-- Slots leave in fresh flits, at most 15 a flit; each is kept for replay. -/
def Port.send (x : Port) : Nat → List (BitVec 128) → Port
  | 0, _ => x
  | n + 1, ss =>
    if ss.isEmpty then x
    else
      let f := flitOf x.txSeq (x.rxSeq + 4095) 0 (ss.take 15)
      Port.send { x with txSeq := (x.txSeq + 1) % 4096, out := x.out ++ [f], replay := x.replay ++ [(x.txSeq, f)] } n (ss.drop 15)

/-- A packet leaves on a port. -/
def State.sendPacket (s : State) (port : Nat) (p : Packet) : State := s.setPort port ((s.port port).send 2 p.slots)

/-- The flits of a packet fit behind those that wait for an acknowledgement. -/
def Port.room (x : Port) (p : Packet) : Bool := decide (x.replay.length + (p.slots.length + 14) / 15 ≤ 4095)

/-! ### Answers (R194) -/

/-- k10 LREF counts a refusal. -/
def State.refusal (s : State) (ctx : Nat) : State := s.setCtx ctx { s.ctx ctx with lref := sat32 (s.ctx ctx).lref }

/-- The fill of a READ or AMO has its value; with a status other than DONE it is 0, and DATA_FAULT falls due. -/
def State.answerLoad (s : State) (k reg key : Nat) (conv : Conv) (faddr : Word64) (pc st : Nat) (data : List Byte) : State :=
  let x := s.slot k
  let mine := fun (f : Fill) => f.reg == reg && f.src == .link key
  let acq := x.fills.any (fun f => mine f && f.acq)
  let fill := fun (f : Fill) =>
    if mine f then
      if st = 0 then { f with src := .ready, v := convWord conv data.length (leNat data), dep := s.cycle }
      else { f with src := .ready, v := 0, dep := s.cycle, fault := some (remoteFault st faddr (BitVec.ofNat 56 pc)) }
    else f
  let s1 := s.setSlot k { x with fills := x.fills.map fill }
  if acq then s1.dropL1 (k / 16) else s1

/-- The answer of a `tsq` is its code. -/
def State.answerTsq (s : State) (k reg key ctx st : Nat) : State :=
  let x := s.slot k
  let fill := fun (f : Fill) =>
    if f.reg = reg ∧ f.src = .link key then { f with src := .ready, v := BitVec.ofNat 64 st } else f
  let s1 := s.setSlot k { x with fills := x.fills.map fill }
  if 5 ≤ st then s1.refusal ctx else s1

/-- A posted write was refused: each slot that issued it reports the first failing status. -/
def State.answerPosted (s : State) (ks : List Nat) (ctx st : Nat) : State :=
  if st = 0 then s
  else ks.foldl (fun t k => let x := t.slot k
                            if x.refused.isNone then t.setSlot k { x with refused := some st } else t) (s.refusal ctx)

/-- A poll of an `nwait` is answered (R148). -/
def State.answerPoll (s : State) (k st : Nat) (data : List Byte) : State :=
  match (s.slot k).st, (s.slot k).wait with
  | .parkedWait, .nwait va _ _ => if st ≠ 0 then s.nwaitFails k va 5 st else s.nwaitValue k (leNat data)
  | _, _ => s

/-- A poll of the word of a spilled `nwait` is answered (R121). -/
def State.answerSpilled (s : State) (ctx tid st : Nat) (data : List Byte) : State :=
  let c := s.ctx ctx
  match Map.find? c.spilled tid with
  | some p => s.setCtx ctx { c with spilled := Map.set c.spilled tid { p with seen := some (st, leNat data) } }
  | none => s

/-- A word that an instruction reads has come; the instruction issues again. -/
def State.answerFetch (s : State) (k stamp : Nat) (f : Fetched) : State :=
  let x := s.slot k
  if x.st = .parkedReg ∧ x.wait = .fetch stamp then
    s.setSlot k { x with st := .active, wait := .none, fetched := x.fetched ++ [f] }
  else s

/-- An answer for a transfer of a cluster. -/
def State.answerXfer (s : State) (cl id : Nat) (g : Xfer → Xfer) : State :=
  let c := s.cluster cl
  s.setCluster cl { c with xfers := c.xfers.map (fun x => if x.id = id then g x else x) }

/-- A request ends with a status and the data that came with it. -/
def State.answer (s : State) (r : LinkReq) (st : Nat) (data : List Byte) : State :=
  let f : Fetched := { rmod := r.p.dst, pa := r.p.addr, status := st, bytes := data }
  match r.who with
  | .load k reg conv faddr pc => s.answerLoad k reg r.key conv faddr pc st data
  | .posted ks ctx => s.answerPosted ks ctx st
  | .tsq k reg ctx => s.answerTsq k reg r.key ctx st
  | .poll k => s.answerPoll k st data
  | .pollSpilled ctx tid => s.answerSpilled ctx tid st data
  | .fetch k stamp => s.answerFetch k stamp f
  | .xfer cl id tuple => if st = 0 then s else s.answerXfer cl id (fun x => x.err tuple st 0 (if st < 5 then 0 else 5))
  | .xferRead cl id _ => s.answerXfer cl id (fun x => { x with fetched := x.fetched ++ [f] })
  | .launch ctx q =>
    let x := s.lqueue ctx q
    s.setLqueue ctx q { x with fetched := x.fetched ++ [f] }
  | .code l => s.setLathe l { s.lathe l with fetched := (s.lathe l).fetched ++ [f] }
  | .done id => s.doneAnswered id st
  | .discard => s

/-- Requests that satisfy p end UNREACH. A RESP to one may still come: its tag stays out of use until then (R195). -/
def State.unreach (s : State) (p : LinkReq → Bool) : State :=
  let gone := s.links.reqs.filter p
  gone.foldl (fun t r => t.answer r 9 [])
    { s with links := { s.links with reqs := s.links.reqs.filter (fun r => !p r), late := s.links.late ++ gone.map (fun r => (r.port, r.tag, r.p.op == 2 || r.p.op == 3)) } }

/-! ### Egress (R112, R192, R195) -/

/-- R195: the plane of an operation. -/
def Packet.plane (p : Packet) : Nat :=
  if p.op = 5 then (bitsOf p.addr 23 14 + bitsOf p.addr 38 32) % 36 else (bitsOf p.addr 16 8 ^^^ bitsOf p.addr 25 17) % 36

/-- The port that an operation leaves on: its plane's, or the next that carries packets. -/
def State.portFor (s : State) (p : Packet) : Option Nat :=
  (firstFrom (fun i => (s.port (i % 36)).carries) p.plane 36).map (fun i => i % 36)

/-- The first operation of each context that waits for the egress of a cluster and that its link balance lets start. -/
def State.egressHeads (s : State) (cl : Nat) : List Egress :=
  let mine := s.links.egress.filter (fun e => e.cluster == cl)
  let first := fun (e : Egress) => (mine.find? (fun f => f.ctx == e.ctx)) == some e
  mine.filter (fun e => first e && tempoOpen (s.ctx e.ctx).budgets.link (s.balances cl e.ctx).link)

/-- R111: the link balance pays for ceil(payload / 64), at least 1. -/
def State.debitLink (s : State) (cl ctx n : Nat) : State :=
  if (s.ctx ctx).budgets.link = 0xFFFF then s
  else
    let b := s.balances cl ctx
    s.setBalances cl ctx { b with link := b.link - (max 1 ((n + 63) / 64) : Nat) }

/-- An operation is accepted for egress: it is sent under the lowest free tag of its port, or ends UNREACH at once.
DESIGN CHOICE, unsafe: assumption 10. -/
def State.sendOp (s : State) (e : Egress) : State :=
  let off := State.debitLink { s with links := { s.links with egress := s.links.egress.erase e } } e.cluster e.ctx e.p.pay.length
  match s.portFor e.p with
  | none => off.answer { tag := 0, port := 0, deadline := 0, ctx := e.ctx, key := e.key, p := e.p, who := e.who } 9 []
  | some port =>
    match firstFrom (fun t => !s.links.reqs.any (fun r => r.port == port && r.tag == t) && !s.links.late.any (fun q => q.1 == port && q.2.1 == t)) 0 4096 with
    | none => s
    | some tag =>
      if (s.port port).room e.p then
        let p := { e.p with tag := tag }
        let r : LinkReq := { tag := tag, port := port, deadline := s.cycle + 2 ^ 22, ctx := e.ctx, key := e.key, p := p, who := e.who }
        State.sendPacket { off with links := { off.links with reqs := off.links.reqs ++ [r] } } port p
      else s

/-- LINK_EGRESS: one of the operations that may start; which context's is the event's choice.
DESIGN CHOICE, unsafe: assumption 10. DESIGN CHOICE, unsafe: assumption 34. -/
def State.linkEgress (s : State) (cl n : Nat) : State :=
  match s.egressHeads cl with
  | [] => s
  | e :: rest => s.sendOp ((e :: rest).getD (n % (rest.length + 1)) e)

def execLinkEgress (s : State) : Out := .next (s.linkEgress s.ctl.at_.cluster s.ctl.at_.n)

/-- LINK_REQUEST_TIMEOUT. -/
def execLinkRequestTimeout (s : State) : Out := .next (s.unreach (fun r => decide (r.deadline ≤ s.cycle)))

/-! ### Port states (R188, Table 13-2) -/

/-- A port stops carrying packets for good: what it has sent and received in part is forgotten, its requests end UNREACH, and their tags
stay out of use (R195).
DESIGN CHOICE, unsafe: assumption 34. -/
def State.portEnds (s : State) (p : Nat) (st : PortSt) : State :=
  let x := s.port p
  State.unreach (s.setPort p { x with st := st, txSeq := 0, rxSeq := 0, replay := [], bad := none, slots := [], rx := [] })
    (fun r => r.port == p)

/-- LPCTL en is written. -/
def State.portEn (s : State) (p : Nat) (en : Bool) : State :=
  let x := { s.port p with en := en }
  if p < 36 then
    match en, x.st with
    | true, .down => s.setPort p { x with st := .training, trainAt := s.cycle }
    | false, .up => State.portEnds (s.setPort p x) p .down
    | false, .degraded => State.portEnds (s.setPort p x) p .down
    | _, _ => s.setPort p x
  else s

def execPortEnable (port : BitVec 6) (s : State) : Out := s.whenReady (s.portEn port.toNat true)
def execPortDisable (port : BitVec 6) (s : State) : Out := s.whenReady (s.portEn port.toNat false)

/-- FENCED by training: the lasting fault is counted. -/
def State.portFence (s : State) (p : Nat) : State :=
  State.portEnds { s with mgmt := { s.mgmt with logLinks := s.mgmt.logLinks + 1 } } p .fenced

/-- The width that lanes give: pair 0 is both pairs; none: no pair passes whole. -/
def pairOf (lanes : Nat) : Option Nat :=
  if lanes = 15 then some 0 else if lanes % 4 = 3 then some 1 else if lanes / 4 = 3 then some 2 else none

/-- TRAINING_DONE: the lanes that pass, without those taken down; the generation that both ends support. Flits sent before a retrain
and not acknowledged are sent again.
DESIGN CHOICE, unsafe: assumption 34. -/
def State.trained (s : State) (p lanes gen : Nat) : State :=
  let x := s.port p
  match x.st with
  | .training =>
    match pairOf (lanes % 16 &&& (15 - x.failed)) with
    | none => s.portFence p
    | some pair => s.setPort p { x with st := if pair = 0 then .up else .degraded, gen := if gen / 2 % 2 = 1 then 1 else 0, pair := pair,
                                        bad := none, out := x.out ++ x.replay.map (·.2) }
  | _ => s

def execTrainingDone (port : BitVec 6) (lanes : BitVec 4) (gen : BitVec 2) (s : State) : Out :=
  .next (s.trained port.toNat lanes.toNat gen.toNat)

/-- TRAINING_TIMEOUT. -/
def State.trainingTimeout (s : State) (p : Nat) : State :=
  let x := s.port p
  if x.st = .training ∧ x.trainAt + 2 ^ 24 ≤ s.cycle then s.portFence p else s

def execTrainingTimeout (s : State) : Out := .next (s.trainingTimeout s.ctl.at_.port)

/-- A lasting lane fault (R189): an UP port retrains without the lane, and the fault is recorded (R369); a DEGRADED one is fenced. -/
def State.laneDown (s : State) (p lane : Nat) : State :=
  let x := { s.port p with failed := (s.port p).failed ||| 2 ^ lane, bad := none }
  match x.st with
  | .up => State.setPort { s with mgmt := { s.mgmt with logLinks := s.mgmt.logLinks + 1 } } p { x with st := .training, trainAt := s.cycle }
  | .degraded => State.portFence (s.setPort p x) p
  | _ => s

/-! ### Receiving flits (R189, R191) -/

/-- The data slots that follow a header: a RESP carries data where the request of its tag asked for it and it is DONE. -/
def State.payloadLen (s : State) (port : Nat) (p : Packet) : Nat :=
  match p.op with
  | 2 => 0
  | 0x20 =>
    match s.links.reqs.find? (fun r => r.port == port && r.tag == p.tag) with
    | some r => if (r.p.op == 2 || r.p.op == 3) && p.status == 0 then p.len + 1 else 0
    | none =>
      match s.links.late.find? (fun q => q.1 == port && q.2.1 == p.tag) with
      | some (_, _, carries) => if carries && p.status == 0 then p.len + 1 else 0
      | none => if p.len = 0 then 0 else p.len + 1
  | _ => p.len + 1

/-- R191: a header that the rules of Tables 13-4 and 13-5 do not allow. -/
def Packet.malformed (p : Packet) (reserved : Nat) : Bool :=
  let n := p.len + 1
  let block : Bool := decide (256 < p.addr % 256 + n)
  reserved != 0 || (p.op != 5 && p.ctx != 0) ||
  match p.op with
  | 1 => p.flags != 0 || block
  | 2 => p.flags != 0 || block
  | 3 => p.flags % 2 != 0 || bitsOf p.flags 7 4 != 0 || p.addr % 8 != 0 || n != (if bitsOf p.flags 3 1 = 6 then 16 else 8)
  | 4 => p.flags != 0 || p.addr % 8 != 0 || n != 8
  | 5 => decide (1 < p.flags) || bitsOf p.addr 40 39 != 0
  | 0x20 => p.flags % 2 != 0 || bitsOf p.flags 6 4 != 0
  | _ => true

/-- R191: the data of a DONE RESP are those that its request asked for: the bytes of a READ, the 8 bytes of an AMO. -/
def State.respLenBad (s : State) (port : Nat) (p : Packet) : Bool :=
  match s.links.reqs.find? (fun r => r.port == port && r.tag == p.tag) with
  | some r => p.op == 0x20 && p.status == 0 && ((r.p.op == 2 && p.len != r.p.len) || (r.p.op == 3 && p.len != 7))
  | none => false

/-- Saturating increment of a 16-bit counter. -/
def sat16 (n : Nat) : Nat := if n + 1 < 2 ^ 16 then n + 1 else 2 ^ 16 - 1

/-- A RESP leaves on the port that its request came by.
DESIGN CHOICE, unsafe: assumption 34. -/
def State.respond (s : State) (port : Nat) (q : Packet) (st : Nat) (data : List Byte) : State :=
  s.sendPacket port { op := 0x20, dst := q.src, src := s.links.lmod, len := data.length - 1, tag := q.tag, flags := statusFlags st, pay := data }

/-- The packets that the slots of a port hold whole are taken; a malformed one is counted and answered. -/
def State.takePackets (s : State) (port : Nat) : Nat → State
  | 0 => s
  | n + 1 =>
    let x := s.port port
    match x.slots with
    | [] => s
    | h :: rest =>
      if h = 0 then State.takePackets (s.setPort port { x with slots := rest }) port n
      else
        let p := packetOf h
        let len := s.payloadLen port p
        let k := (len + 15) / 16
        if rest.length < k then s
        else
          let q := { p with pay := ((rest.take k).flatMap (fun b => leBytes 16 b.toNat)).take len }
          let y := { x with slots := rest.drop k }
          if p.malformed (h.toNat % 2 ^ 12) || s.respLenBad port p then
            let s1 := s.setPort port { y with badpkt := sat16 y.badpkt }
            State.takePackets (if p.op = 0x20 then s1 else s1.respond port p 8 []) port n
          else State.takePackets (s.setPort port { y with rx := y.rx ++ [q] }) port n

/-- The entries that an acknowledgement of sequence number a covers leave the replay buffer. -/
def Port.acked (x : Port) (a : Nat) : Port :=
  if x.replay.any (fun r => r.1 == a) then { x with replay := (x.replay.dropWhile (fun r => r.1 != a)).drop 1 } else x

/-- The lane with the most syndromes in two attempts, the lower on a tie. -/
def worstLane (a b : Nat) : Nat :=
  let n := fun i => b2n (a.testBit i) + b2n (b.testBit i)
  (numsFrom 1 3).foldl (fun best i => if n best < n i then i else best) 0

/-- A flit whose CRC is bad: a replay is asked for, or the lane is taken down.
DESIGN CHOICE, unsafe: assumption 34. -/
def State.badFlit (s : State) (p lanes : Nat) : State :=
  let x := s.port p
  match x.bad with
  | none => s.setPort p { x with bad := some lanes, out := x.out ++ [flitOf x.txSeq (x.rxSeq + 4095) 2 []] }
  | some first => s.laneDown p (worstLane first lanes)

/-- A flit whose CRC passes; one of no listed kind is discarded, its acknowledgement with it (Table 13-3).
DESIGN CHOICE, unsafe: assumption 34. -/
def State.goodFlit (s : State) (p : Nat) (f : BitVec 2048) : State :=
  let x := if flitKind f ≤ 2 then (s.port p).acked (flitAck f) else s.port p
  match flitKind f with
  | 0 =>
    if flitSeq f = x.rxSeq then
      let y := { x with rxSeq := (x.rxSeq + 1) % 4096, slots := x.slots ++ flitSlots f, bad := none,
                        soft := if x.bad.isSome then sat32 x.soft else x.soft }
      State.takePackets (s.setPort p y) p y.slots.length
    else s.setPort p x
  | 2 => s.setPort p { x with out := x.out ++ x.replay.map (·.2) }
  | _ => s.setPort p x

/-- FLIT_RECEIVE. -/
def State.flitReceive (s : State) (p : Nat) (f : BitVec 2048) (lanes : Nat) : State :=
  if (s.port p).carries then (if flitGood f then s.goodFlit p f else s.badFlit p lanes) else s

def execFlitReceive (port : BitVec 6) (flit : BitVec 2048) (laneErr : BitVec 4) (s : State) : Out :=
  .next (s.flitReceive port.toNat flit laneErr.toNat)

/-! ### Packets received (R193) -/

/-- Bits of a window entry. -/
def Window.en (w : Window) : Bool := w.lo.getLsbD 63
def Window.tile (w : Window) : Bool := w.lo.getLsbD 62
def Window.admits (w : Window) (src : Nat) : Bool :=
  w.en && decide (bitsOf w.lo.toNat 41 32 ≤ src) && decide (src ≤ bitsOf w.lo.toNat 51 42)
def Window.base (w : Window) : Nat := bitsOf w.hi.toNat 38 12 * 4096
def Window.size (w : Window) : Nat := bitsOf w.hi.toNat 63 39 * 4096
/-- The bit of perm for an op: READ 58, WRITE 59, AMO 60, NOTIFY 61. -/
def permBit (op : Nat) : Nat :=
  match op with
  | 1 => 59
  | 2 => 58
  | 3 => 60
  | _ => 61

/-- The bytes that an operation accesses: 8 for every AMO, whatever its payload (R51). -/
def Packet.span (p : Packet) : Nat := if p.op = 3 then 8 else p.len + 1

/-- The entry matches a packet. -/
def Window.matches (w : Window) (p : Packet) : Bool :=
  if p.op = 5 then w.admits p.src && w.tile && bitsOf w.lo.toNat 57 52 == p.ctx
  else w.admits p.src && !w.tile && w.lo.getLsbD (permBit p.op) && decide (w.base ≤ p.addr)
    && decide (p.addr + p.span ≤ w.base + w.size)

/-- R193, R373: the status that refuses a packet before it is performed; 0: it may be.
DESIGN CHOICE, unsafe: assumption 34. -/
def State.admission (s : State) (p : Packet) : Nat :=
  if !s.links.windows.any (fun w => w.2.matches p) then 5
  else if p.op = 5 then (if s.ctxRuns p.ctx then 0 else 6)
  else if !s.inMap p.addr p.span then 5
  else if s.rangeMarked p.addr p.span then 7
  else 0

/-- The head of the packets that a port has received, if it has an op. -/
def State.received (s : State) (port op : Nat) : Option Packet :=
  match (s.port port).rx with
  | [] => none
  | p :: _ => if p.op = op ∧ (s.port port).carries then some p else none

/-- The packet leaves the port, and its answer is sent. -/
def State.answered (s : State) (port : Nat) (p : Packet) (st : Nat) (data : List Byte) : State :=
  let x := s.port port
  State.respond (s.setPort port { x with rx := x.rx.drop 1 }) port p st data

/-- The packet at the head of a port is checked, and performed if it passes: a status and data answer it. None: it waits. -/
def State.serve (s : State) (port op : Nat) (f : State → Packet → Option (State × Nat × List Byte)) : State :=
  match s.received port op with
  | none => s
  | some p =>
    match s.admission p with
    | 0 => match f s p with
      | some (s1, st, data) => s1.answered port p st data
      | none => s
    | st => s.answered port p st []

def execLinkWrite (s : State) : Out :=
  .next (s.serve s.ctl.at_.port 1 (fun s p => some (s.hbmWrite p.addr p.pay, 0, [])))

def execLinkRead (s : State) : Out :=
  .next (s.serve s.ctl.at_.port 2 (fun s p =>
    if s.poisoned p.addr (p.len + 1) then some (s, 10, []) else some (s, 0, Memory.readBytes s.hbm p.addr (p.len + 1))))

/-- Table 16-3: a link sub-op's new value and the value it returns; none: a malformed batch word (R149).
DEDUCED, unsafe: assumption 22. -/
def linkAmo (sub : Nat) (old : Word64) (pay : List Byte) : Option (Word64 × Word64) :=
  let v := BitVec.ofNat 64 (leNat (pay.take 8))
  match sub with
  | 0 => some (v, old)
  | 1 => some (old + v, old)
  | 2 => some (old &&& v, old)
  | 3 => some (old ||| v, old)
  | 4 => some (old ^^^ v, old)
  | 5 => some (faddWord old v, old)
  | 6 => some (if old = v then BitVec.ofNat 64 (leNat (pay.drop 8)) else old, old)
  | _ => if batchBad old then none else some (batchNew old, batchRet old)

/-- One read-modify-write of a word of committed memory; buffered bytes of the word come first (R51). -/
def State.linkRmw (s : State) (a : Nat) (f : Word64 → Option (Word64 × Word64)) (reply : Bool) : Option (State × Nat × List Byte) :=
  match s.drainOver 0 0 a 8 with
  | (_, some _) => none
  | (s1, none) =>
    if s1.poisoned a 8 then some (s1, 10, [])
    else
      match f (BitVec.ofNat 64 (s1.hbmRead a 8)) with
      | none => some (s1, 8, [])
      | some (v, ret) => some (s1.hbmWriteNat a 8 v.toNat, 0, if reply then leBytes 8 ret.toNat else [])

def execLinkAmo (s : State) : Out :=
  .next (s.serve s.ctl.at_.port 3 (fun s p => s.linkRmw p.addr (fun old => linkAmo (bitsOf p.flags 3 1) old p.pay) true))

def execLinkNotify (s : State) : Out :=
  .next (s.serve s.ctl.at_.port 4 (fun s p => s.linkRmw p.addr (fun old => linkAmo 1 old p.pay) false))

/-- A TILEWR at the tile port (R129, R131); an accepted one lapses a checkpoint (R74). -/
def State.tileArrives (s : State) (p : Packet) : State × Nat × List Byte :=
  match s.portWrite none p.ctx (p.addr % 2 ^ 32) (bitsOf p.addr 38 32) (bitsOf p.addr 55 41) p.pay (p.flags.testBit 0) false with
  | (s1, 0) => (s1.lapse p.ctx, 0, [])
  | (s1, code) => (s1, code, [])

def execTilewr (s : State) : Out := .next (s.serve s.ctl.at_.port 5 (fun s p => some (s.tileArrives p)))

/-- RESP: the request of its tag ends; one that matches none, or whose request has ended UNREACH by now, is discarded (R195). -/
def State.respArrives (s : State) (port : Nat) : State :=
  match s.received port 0x20 with
  | none => s
  | some p =>
    let x := s.port port
    let s0 := s.setPort port { x with rx := x.rx.drop 1 }
    let s1 := { s0 with links := { s0.links with late := s0.links.late.filter (fun q => !(q.1 == port && q.2.1 == p.tag)) } }
    match s1.links.reqs.find? (fun r => r.port == port && r.tag == p.tag) with
    | none => s1
    | some r =>
      if r.deadline ≤ s.cycle then State.answer { s1 with links := { s1.links with reqs := s1.links.reqs.erase r } } r 9 []
      else State.answer { s1 with links := { s1.links with reqs := s1.links.reqs.erase r } } r p.status p.pay

def execResp (s : State) : Out := .next (s.respArrives s.ctl.at_.port)

/-! ### The host attachment (R197, R198) -/

/-- Table 13-9, the highest first: bit 4 of a set of modes is CXL 3.1, bit 0 is PCIe 5.0.
DESIGN CHOICE, unsafe: assumption 34. -/
def bestMode (modes : Nat) : Option HostMode :=
  if modes.testBit 4 then some .cxl31
  else if modes.testBit 3 then some .cxl20
  else if modes.testBit 2 then some .cxl11
  else if modes.testBit 1 then some .pcie6
  else if modes.testBit 0 then some .pcie5
  else none

def execHostLinkTrain (mode : BitVec 5) (s : State) : Out := .next { s with hostMode := bestMode mode.toNat }

/-- R67, R198, R373: a host write to HBM is performed as committed data; one that touches a marked frame is dropped.
DESIGN CHOICE, unsafe: assumption 34. -/
def State.hostWrite (s : State) (a : Nat) (bs : List Byte) : State :=
  if s.hostMode.isNone || s.mgmt.boot != .ready || !s.inMap a bs.length || s.rangeMarked a bs.length then s else s.hbmWrite a bs

/-- What a host read returns: none for poisoned data, and outside the module's map (R369). -/
def State.hostRead (s : State) (a n : Nat) : Option (List Byte) :=
  if s.mgmt.boot ≠ .ready ∨ !s.inMap a n ∨ s.rangeMarked a n ∨ s.poisoned a n then none else some (Memory.readBytes s.hbm a n)

def execHostMemAccess (write : Bool) (addr : BitVec 44) (n : Nat) (data : List (BitVec 8)) (s : State) : Out :=
  .next (if write then s.hostWrite addr.toNat (data.take n) else s)

end Sys2Proof.Machine
end

