-- ==== Sys2Proof/Machine/Shake.lean ====
section
/-! DEFINITION. SHAKE256 (R362, R363, R366): the function of FIPS 202, which the spec names and does not write out. -/

namespace Sys2Proof.Machine

/-- The lane at x and y of the permutation's state. -/
def keccakLane (a : List Word64) (x y : Nat) : Word64 := a.getD (x % 5 + 5 * (y % 5)) 0

/-- The 25 lanes given by a function of x and y. -/
def keccakLanes (f : Nat → Nat → Word64) : List Word64 := (List.range 25).map (fun i => f (i % 5) (i / 5))

def rhoOffsets : List Nat := [0, 1, 62, 28, 27, 36, 44, 6, 55, 20, 3, 10, 43, 25, 39, 41, 45, 15, 21, 8, 18, 2, 61, 56, 14]

def roundConstants : List Nat :=
  [0x1, 0x8082, 0x800000000000808A, 0x8000000080008000, 0x808B, 0x80000001, 0x8000000080008081, 0x8000000000008009,
   0x8A, 0x88, 0x80008009, 0x8000000A, 0x8000808B, 0x800000000000008B, 0x8000000000008089, 0x8000000000008003,
   0x8000000000008002, 0x8000000000000080, 0x800A, 0x800000008000000A, 0x8000000080008081, 0x8000000000008080, 0x80000001,
   0x8000000080008008]

/-- One round.
PRESUMED, unsafe: assumption 17. -/
def keccakRound (a : List Word64) (rc : Nat) : List Word64 :=
  let c := (List.range 5).map (fun x => keccakLane a x 0 ^^^ keccakLane a x 1 ^^^ keccakLane a x 2 ^^^ keccakLane a x 3 ^^^ keccakLane a x 4)
  let d := (List.range 5).map (fun x => c.getD ((x + 4) % 5) 0 ^^^ (c.getD ((x + 1) % 5) 0).rotateLeft 1)
  let t := keccakLanes (fun x y => keccakLane a x y ^^^ d.getD x 0)
  let b := keccakLanes (fun x y => let x' := (x + 3 * y) % 5
                               (keccakLane t x' x).rotateLeft (rhoOffsets.getD (x' + 5 * x) 0))
  match keccakLanes (fun x y => keccakLane b x y ^^^ (~~~ (keccakLane b (x + 1) y) &&& keccakLane b (x + 2) y)) with
  | [] => []
  | z :: r => (z ^^^ BitVec.ofNat 64 rc) :: r

/-- The permutation.
PRESUMED, unsafe: assumption 17. -/
def keccak (a : List Word64) : List Word64 := roundConstants.foldl keccakRound a

/-- The sponge takes in whole blocks of 136 bytes. -/
def absorb : Nat → List Word64 → List Byte → List Word64
  | 0, a, _ => a
  | n + 1, a, bs =>
    absorb n (keccak ((List.range 25).map (fun i => a.getD i 0 ^^^ (if i < 17 then BitVec.ofNat 64 (leNat ((bs.drop (8 * i)).take 8)) else 0))))
      (bs.drop 136)

/-- And gives out blocks of 136 bytes. -/
def squeeze : Nat → List Word64 → List Byte
  | 0, _ => []
  | n + 1, a => (a.take 17).flatMap (fun x => leBytes 8 x.toNat) ++ squeeze n (keccak a)

/-- The padding of a message of n bytes: the suffix of SHAKE, then 10*1.
PRESUMED, unsafe: assumption 17. -/
def shakePad (n : Nat) : List Byte :=
  if n % 136 = 135 then [0x9F#8] else [0x1F#8] ++ List.replicate (134 - n % 136) 0#8 ++ [0x80#8]

/-- SHAKE256: n bytes of output.
PRESUMED, unsafe: assumption 17. -/
def shake256 (msg : List Byte) (n : Nat) : List Byte :=
  (squeeze ((n + 135) / 136) (absorb (msg.length / 136 + 1) (List.replicate 25 0) (msg ++ shakePad msg.length))).take n

end Sys2Proof.Machine
end

