-- ==== Sys2Proof/Machine/Mgmt.lean ====
section
/-! DEFINITION. Bring-up, attestation, the mark unit, idle states, power, errors, and the registers of BAR0 (R4, R70, R92, R175, R198, R336,
R338, R362 to R370, R373). -/

namespace Sys2Proof.Machine

/-! ### Reset and firmware (R362, R369) -/

/-- Module reset: ROM, and from there VERIFY; while VERIFY is in progress Table 27-1 lists no reset. Every field at its reset value, the
clusters and frames that the boot flash's error log names applied; verification starts. Host memory, the flash log and the model's own fields
are not the module's to reset.
DESIGN CHOICE, unsafe: assumption 35. -/
def State.resetModule (s : State) : State :=
  if s.mgmt.boot = .verify ∧ !s.mgmt.off then s
  else
  let g : Mgmt := { boot := .verify, fences := s.mgmt.logFence, retired := s.mgmt.logRetire, logFence := s.mgmt.logFence,
                    logRetire := s.mgmt.logRetire, logLinks := s.mgmt.logLinks }
  { State.reset with ctl := { s.ctl with period := 0 }, host := s.host, hostBad := s.hostBad, mgmt := g }

def execModuleReset (s : State) : Out := .next s.resetModule

/-- VERIFY ends: HBM is initialised and the fw values are loaded, or nothing further starts.
DESIGN CHOICE, safe: assumption 9. -/
def State.verified (s : State) (ok : Bool) : State :=
  match s.mgmt.boot with
  | .verify =>
    if ok then { s with hbm := [], poison := [], links := { s.links with lmod := Config.moduleNumber.toNat }
                        mgmt := { s.mgmt with boot := .ready } }
    else { s with mgmt := { s.mgmt with boot := .bootfail } }
  | _ => s

/-- The firmware digest: SHAKE256, 512 bits, over every byte of the image but the signature. -/
def firmwareDigest : List Byte := shake256 Config.firmwareBody 64

/-- The checks of VERIFY: the digest of the verifying key is the fused one, the signature over the firmware digest passes under that key, and
the image's rollback counter is not below the fused counter. -/
def firmwareOk : Bool :=
  shake256 Config.verifyingKey 64 == Config.fusedKeyDigest
  && Config.falconVerify Config.verifyingKey firmwareDigest Config.firmwareSignature
  && decide (Config.fusedRollback.toNat ≤ Config.rollbackCounter.toNat)

def execFirmwareVerify (s : State) : Out := .next (s.verified firmwareOk)

/-! ### Attestation (R363) -/

/-- The randomness of key generation: the output bytes of SHAKE256 over the fused seed and the firmware digest (R363). -/
def keySeed (n : Nat) : Byte := (shake256 ((List.range 32).map Config.fusedSeed ++ firmwareDigest) (n + 1)).getD n 0

def publicKey : List Byte := (List.range 1793).map (Config.falconPublicKey keySeed)

/-- A signature with its length before it; a Falcon-1024 signature has at most 1,462 bytes. -/
def signed (msg : List Byte) : List Byte :=
  let sg := (Config.falconSign keySeed msg).take 1462
  leBytes 2 sg.length ++ sg

/-- ATTREQ command 1.
DESIGN CHOICE, unsafe: assumption 35. -/
def State.attStart (s : State) (addr : Nat) : State :=
  if s.mgmt.attRes = 1 then s
  else
    let ok := s.mgmt.boot == .ready && s.inMap (addr * 4096) 4096
    { s with mgmt := { s.mgmt with attAddr := addr, attBuf := addr, attRes := if ok then 1 else 3 } }

def execAttreqStart (addr : BitVec 44) (s : State) : Out := .next (s.attStart addr.toNat)

/-- The parts of a report that follow the nonce, up to the end of the public key (Table 27-2).
DESIGN CHOICE, safe: assumption 9. DESIGN CHOICE, unsafe: assumption 35. -/
def State.reportBody (s : State) : List Byte :=
  shake256 publicKey 64 ++ firmwareDigest
  ++ leBytes 4 Config.firmwareVersion.toNat ++ leBytes 2 Config.rollbackCounter.toNat ++ leBytes 2 0
  ++ leBytes 32 s.mgmt.fences.toNat ++ publicKey

/-- The signed report has been written. -/
def State.attDone (s : State) : State :=
  if s.mgmt.attRes = 1 then
    let a := s.mgmt.attBuf * 4096
    let s1 := s.hbmWrite (a + 0x20) s.reportBody
    let s2 := s1.hbmWrite (a + 0x7D0) (signed (Memory.readBytes s1.hbm a 0x7D0))
    { s2 with mgmt := { s2.mgmt with attRes := 2 } }
  else s

def execAttestationDone (s : State) : Out := .next s.attDone

/-! ### The mark unit (R365, R366) -/

/-- Fields of a descriptor (Table 27-3). -/
def MarkJob.word (j : MarkJob) (i : Nat) : Nat := (j.words.getD i 0).toNat
def MarkJob.wb (j : MarkJob) : Nat := bitsOf (j.word 1) 31 16
def MarkJob.hb (j : MarkJob) : Nat := bitsOf (j.word 1) 15 0
def MarkJob.delta (j : MarkJob) : Nat := bitsOf (j.word 6) 35 32
def MarkJob.ctx (j : MarkJob) : Nat := bitsOf (j.word 6) 45 40
/-- The 96 payload bits. -/
def MarkJob.payload (j : MarkJob) : Nat := j.word 5 + 2 ^ 64 * bitsOf (j.word 6) 31 0
/-- The va of row i: 16·hb luma rows, then 8·hb chroma rows, at one stride. -/
def MarkJob.rowVa (j : MarkJob) (i : Nat) : Nat := j.word 0 + j.word 2 * i
def MarkJob.rows (j : MarkJob) : Nat := 24 * j.hb

/-- The fields that R365 accepts. -/
def MarkJob.fieldsOk (j : MarkJob) : Bool :=
  bitsOf (j.word 1) 63 32 == 0 && bitsOf (j.word 6) 63 46 == 0 && bitsOf (j.word 6) 39 36 == 0
  && bitsOf (j.word 0) 63 56 == 0 && j.word 0 % 16 == 0
  && j.wb != 0 && j.hb != 0 && decide (96 ≤ j.wb * j.hb) && j.delta != 0 && j.word 2 % 16 == 0 && decide (16 * j.wb ≤ j.word 2)

/-- A page of the source is translated, as a walk of the page unit, without the sv check (R372): an MK page of module HBM. -/
def State.markPage (s : State) (ctx vpn : Nat) : State × Option Nat :=
  match s.walk ctx (vpn * 2 ^ 19) with
  | .leaf lvl a e =>
    match leafCheck (pteSv e) (pteW e) (pteX e) .read false false with
    | none =>
      let s1 := (s.hbmWriteNat a 8 (pteTouched e .read)).markFrames (tlbOfPte lvl e)
      if pteMk e ∧ pteTgt e = 0 then (s1, some (ptePa e + vpn * 2 ^ 19 % 2 ^ pageLog lvl)) else (s1, none)
    | some _ => (s, none)
  | _ => (s, none)

/-- The pages of rows, in turn; none: a source byte is refused. -/
def State.markPages (s : State) (j : MarkJob) : List Nat → State × Option (Map Nat)
  | rows =>
    rows.foldl (fun r i =>
      let a := j.rowVa i
      if windowOf a ≠ .global ∨ windowOf (a + (16 * j.wb - 1)) ≠ .global then (r.1, none)
      else
        (numsFrom (a / 2 ^ 19) ((a + (16 * j.wb - 1)) / 2 ^ 19 - a / 2 ^ 19 + 1)).foldl (fun q vpn =>
          match q.2 with
          | none => q
          | some m =>
            if (Map.find? m vpn).isSome then q
            else match q.1.markPage j.ctx vpn with
              | (t, some pa) => (t, some (Map.set m vpn pa))
              | (t, none) => (t, none)) r) (s, some [])

/-- A page of the source is being walked on the die of the context's trap core, or all of its walkers are at work: the job waits (R172).
DESIGN CHOICE, unsafe: assumption 8. -/
def State.markWaits (s : State) (j : MarkJob) : Bool :=
  let die := dieOf (clusterOf (s.ctx j.ctx).trapc)
  (numsFrom 0 j.rows).any (fun i =>
    let a := j.rowVa i
    s.walkBusy die j.ctx a || s.walkBusy die j.ctx (a + (16 * j.wb - 1)))

/-- The source bytes of a job, row by row. -/
def State.markSource (s : State) (j : MarkJob) : List Byte :=
  (numsFrom 0 j.rows).flatMap (fun i => (numsFrom (j.rowVa i) (16 * j.wb)).map (fun va =>
    Memory.readByte s.hbm (Map.get j.pages (va / 2 ^ 19) 0 + va % 2 ^ 19)))

/-- A job is refused. -/
def State.markRefused (s : State) : State := { s with mgmt := { s.mgmt with mkState := 3, mkStatus := 1, mkJob := none } }

/-- A job whose descriptor is good starts, or is refused for its source; it waits while its pages cannot be walked. -/
def State.markStart (s : State) (j : MarkJob) : State :=
  let go := fun (t : State) (j : MarkJob) => { t with mgmt := { t.mgmt with mkState := 1, mkStatus := 0, mkJob := some j } }
  if s.markWaits j then go s { j with waits := true }
  else match s.markPages j (numsFrom 0 j.rows) with
    | (s1, none) => s1.markRefused
    | (s1, some m) =>
      let j1 := { j with pages := m, waits := false }
      go s1 { j1 with old := s1.markSource j1 }

/-- MKPOST command 1: the descriptor is checked, and the job refused or started.
DESIGN CHOICE, unsafe: assumption 35. -/
def State.markPost (s : State) (a : Nat) : State :=
  if s.mgmt.mkState = 1 then { s with mgmt := { s.mgmt with mkOvf := true } }
  else if !s.inMap a 64 || s.poisoned a 64 then s.markRefused
  else
    let j : MarkJob := { words := (List.range 8).map (fun i => BitVec.ofNat 64 (s.hbmRead (a + 8 * i) 8)) }
    if !j.fieldsOk || !s.ctxRuns j.ctx then s.markRefused else s.markStart j

def execMkpost (desc : BitVec 50) (s : State) : Out := .next (s.markPost (desc.toNat * 64))

/-- The stream bits of block n (R366). -/
def markStream (key : BitVec 256) (fctr n : Nat) : Nat := leNat (shake256 (leBytes 32 key.toNat ++ leBytes 8 fctr ++ leBytes 4 n) 32)

/-- A luma byte, marked. -/
def markByte (delta : Nat) (y : Byte) (up : Bool) : Byte :=
  BitVec.ofNat 8 (if up then min 255 (y.toNat + delta) else y.toNat - delta)

/-- The 16 rows of blocks by of a frame, whose bytes are given row by row. -/
def MarkJob.blockRow (j : MarkJob) (key : BitVec 256) (src : List Byte) (by_ : Nat) : List Byte :=
  let zs := (numsFrom (by_ * j.wb) j.wb).map (fun n => (markStream key (j.word 7) n, j.payload.testBit (n % 96)))
  (numsFrom 0 16).flatMap (fun r =>
    let row := (src.drop ((16 * by_ + r) * (16 * j.wb))).take (16 * j.wb)
    (row.zip (zs.flatMap (fun z => (numsFrom 0 16).map (fun c => z.1.testBit (16 * r + c) == z.2)))).map (fun p => markByte j.delta p.1 p.2))

/-- The bytes written at dst: marked luma, then chroma as it is. -/
def MarkJob.frame (j : MarkJob) (key : BitVec 256) (src : List Byte) : List Byte :=
  (numsFrom 0 j.hb).flatMap (j.blockRow key src) ++ src.drop (256 * j.wb * j.hb)

/-- The manifest: its body, then the signature with its length.
DESIGN CHOICE, safe: assumption 9. -/
def MarkJob.manifest (j : MarkJob) (frame : List Byte) : List Byte :=
  let body := (Config.manifestBody (j.word 7) j.payload j.delta j.wb j.hb (shake256 frame 64)).take 584
  body ++ signed body

/-- The source as the job reads it: for each byte the value at its start or the one now (R366).
DESIGN CHOICE, unsafe: assumption 35. -/
def State.markRead (s : State) (j : MarkJob) : List Byte :=
  ((numsFrom 0 (16 * j.wb * j.rows)).zip (j.old.zip (s.markSource j))).map
    (fun p => if Config.freeView s.ctl.free p.1 then p.2.1 else p.2.2)

/-- The job ends: frame and manifest are in host memory, or a write met an error and part of the frame is there. A job that waits for
walkers looks its pages up.
DESIGN CHOICE, unsafe: assumption 35. -/
def State.markDone (s : State) (ok : Bool) : State :=
  match s.mgmt.mkState, s.mgmt.mkJob with
  | 1, some j =>
    if j.waits then s.markStart j
    else
    let fr := j.frame s.mgmt.mkKey (s.markRead j)
    let n := if ok then fr.length else Config.freeNat s.ctl.free
    let h := Memory.writeBytes s.host (j.word 3) (fr.take n)
    { s.tookFree with host := if ok then Memory.writeBytes h (j.word 4) (j.manifest fr) else h
                      mgmt := { s.mgmt with mkState := if ok then 2 else 3, mkStatus := if ok then 0 else 2, mkJob := none } }
  | _, _ => s

def execMarkJobComplete (hostOk : Bool) (s : State) : Out := .next (s.markDone hostOk)

/-! ### Power and temperature (R368) -/

/-- A die temperature, in quarters of a degree. -/
def dieTemp (temps : Word64) (i : Nat) : Nat := bitsOf temps.toNat (16 * i + 15) (16 * i)
def anyTemp (temps : Word64) (p : Nat → Bool) : Bool := (List.range 4).any (fun i => p (dieTemp temps i))

/-- THROTTLE_INTERVAL: power and temperatures as measured; over a limit, one interval of the arithmetic clock is left out, and at 110 °C the
load is removed. -/
def State.throttle (s : State) (power : Nat) (temps : Word64) : State :=
  let hot := decide (s.mgmt.pcap < power) || anyTemp temps (fun t => decide (95 * 4 < t))
  { s with mgmt := { s.mgmt with tsens := temps, thr := if hot then sat32 s.mgmt.thr else s.mgmt.thr
                                 off := s.mgmt.off || anyTemp temps (fun t => decide (110 * 4 ≤ t)) } }

def execThrottleInterval (power : BitVec 16) (temps : BitVec 64) (s : State) : Out := .next (s.throttle power.toNat temps)

/-- THERMAL_TRIP: at 110 °C the load is removed. -/
def execThermalTrip (temps : BitVec 64) (s : State) : Out :=
  .next { s with mgmt := { s.mgmt with tsens := temps, off := s.mgmt.off || anyTemp temps (fun t => decide (110 * 4 ≤ t)) } }

/-! ### Idle states (R367) -/

/-- A Lathe is issuing: in its next turn at the cycle it waits for, it does something. -/
def State.latheIssues (s : State) (l : Nat) : Bool :=
  let x := s.lathe l
  let t : State := { s with cycle := max s.cycle x.nextIssue }
  x.bound.isSome && x.trap.isNone && decide (t.latheTurn l ≠ t)

/-- The module is idle. -/
def State.idle (s : State) : Bool :=
  s.slots.all (fun p => p.2.st != .active && p.2.fills.isEmpty)
  && s.ctxs.all (fun p => p.2.queues.all (fun q => q.2.entries.isEmpty) && p.2.toll.isNone
       && p.2.pages.all (fun g => g.2.st != .filling))
  && s.clusters.all (fun p => p.2.xfers.isEmpty)
  && s.tiles.all (fun p => p.2.chimeAt.isNone)
  && s.lathes.all (fun p => !s.latheIssues p.1)

/-- Exit latencies in nanoseconds (Table 27-4): the deepest state whose latency is at or below a tolerance. -/
def deepest (tol : Nat) : Nat :=
  if 400000 ≤ tol then 4 else if 40000 ≤ tol then 3 else if 5000 ≤ tol then 2 else if 500 ≤ tol then 1 else 0

def execIdleEntry (s : State) : Out :=
  .next (if s.mgmt.boot = .ready ∧ s.idle then { s with mgmt := { s.mgmt with idle := deepest s.mgmt.ltol } } else s)

def execIdleExit (s : State) : Out := .next (if s.idle then s else { s with mgmt := { s.mgmt with idle := 0 } })

/-! ### Errors (R336, R369, Table 20-5) -/

/-- A transient error: the counter of its unit. -/
def State.softError (s : State) (site : ErrorSite) : State :=
  match site with
  | .hbm _ => { s with mgmt := { s.mgmt with softHbm := sat32 s.mgmt.softHbm } }
  | .spBank _ _ => { s with mgmt := { s.mgmt with softMem := sat16 s.mgmt.softMem } }
  | .l2 _ _ => { s with mgmt := { s.mgmt with softMem := sat16 s.mgmt.softMem } }
  | .linkLane port _ =>
    if port.toNat < 36 then s.setPort port.toNat { s.port port.toNat with soft := sat32 (s.port port.toNat).soft } else s
  | .slotReg _ _ => { s with mgmt := { s.mgmt with softReg := sat16 s.mgmt.softReg } }
  | .latheReg _ => { s with mgmt := { s.mgmt with softReg := sat16 s.mgmt.softReg } }
  | .accumulator _ => { s with mgmt := { s.mgmt with softReg := sat16 s.mgmt.softReg } }
  | .handleQueue _ => { s with mgmt := { s.mgmt with softReg := sat16 s.mgmt.softReg } }
  | .launchQueue _ _ => { s with mgmt := { s.mgmt with softReg := sat16 s.mgmt.softReg } }
  | .message _ _ => { s with mgmt := { s.mgmt with softReg := sat16 s.mgmt.softReg } }
  | .chuckFifo _ _ _ => { s with mgmt := { s.mgmt with softReg := sat16 s.mgmt.softReg } }
  | .deque _ => { s with mgmt := { s.mgmt with softReg := sat16 s.mgmt.softReg } }
  | .tileEntry _ _ => { s with mgmt := { s.mgmt with softReg := sat16 s.mgmt.softReg } }

/-- The boot flash's log names a cluster. -/
def State.logCluster (s : State) (cl : Nat) : State := { s with mgmt := { s.mgmt with logFence := s.mgmt.logFence ||| BitVec.ofNat 256 (2 ^ cl) } }

/-- The sector of HBM that holds an address is poisoned. -/
def State.poisonSector (s : State) (a : Nat) : State :=
  if a < hbmSize then { s with poison := if s.poison.contains (a / 32) then s.poison else a / 32 :: s.poison } else s

/-- An uncorrectable error in the state of a context, in a cluster. -/
def State.stateError (s : State) (cl : Nat) (ctx : Option Nat) : State :=
  match ctx with
  | some c => (s.logCluster cl).faultContext c
  | none => s.logCluster cl

/-- An uncorrectable error in a Lathe, in the state of the context that it is bound to. -/
def State.latheError (s : State) (l : Nat) : State := s.stateError (l / 4) ((s.lathe l).bound.map (fun _ => (s.lathe l).ctx))

/-- A lasting error (Table 20-5).
DESIGN CHOICE, unsafe: assumption 35. -/
def State.lastingError (s : State) (site : ErrorSite) : State :=
  match site with
  | .hbm a =>
    if a < hbmSize then
      let s1 := s.poisonSector a
      { s1 with mgmt := { s1.mgmt with logRetire := if s1.mgmt.logRetire.contains (a / 2 ^ 19) then s1.mgmt.logRetire
                                                    else a / 2 ^ 19 :: s1.mgmt.logRetire } }
    else s
  | .spBank cl off =>
    let n := spAddr cl.toNat off.toNat / 32
    State.logCluster { s with spPoison := if s.spPoison.contains n then s.spPoison else n :: s.spPoison } cl.toNat
  | .l2 slice a => (s.poisonSector a).logCluster (slice.toNat / 8)
  | .linkLane port lane => if port.toNat < 36 then s.laneDown port.toNat lane.toNat else s
  | .slotReg core slot =>
    let x := s.slot (16 * core.toNat + slot.toNat)
    s.stateError (clusterOf core.toNat) (if x.st = .free then none else some x.ctx)
  | .latheReg l => s.latheError l.toNat
  | .accumulator l => s.latheError l.toNat
  | .handleQueue l => s.latheError l.toNat
  | .launchQueue ctx _ => s.stateError (clusterOf (s.ctx ctx.toNat).trapc) (some ctx.toNat)
  | .message core i =>
    let c := s.core core.toNat
    s.stateError (clusterOf core.toNat) (((c.inbox ++ c.ring)[i]?).map (·.ctx))
  | .chuckFifo cl f i => s.stateError cl.toNat (((s.fifo cl.toNat (f.toNat % 20)).entries[i]?).map (·.ctx))
  | .deque core => s.stateError (clusterOf core.toNat) (((s.core core.toNat).deque.head?.bind (fun t => Map.find? s.launches t.launch)).map (·.ctx))
  | .tileEntry cl idx =>
    let t := s.tile (tileKey cl.toNat idx.toNat)
    s.stateError cl.toNat (if t.st = .free then none else some t.ctx)

def execErrorRetry (site : ErrorSite) (ok : Bool) (s : State) : Out := .next (if ok then s.softError site else s.lastingError site)

/-! ### BAR0 (R198, Table 13-10) -/

/-- A write of ones clears those bits (W1C). -/
def w1c (cur written : Nat) : Nat := cur ^^^ (cur &&& written)

/-- CCTL (R70). An unassigned command changes addr and status only. -/
def State.writeCctl (s : State) (ctx v : Nat) : State :=
  let a := bitsOf v 55 12
  match bitsOf v 63 56 with
  | 0 => s.cctlAddr ctx a
  | 1 => s.loadCmd ctx a
  | 2 => s.saveCmd ctx a
  | 3 => s.forceCmd ctx a
  | 4 => s.restoreCmd ctx a
  | 5 => s.teardownCmd ctx a
  | _ => s.setCtx ctx { s.ctx ctx with addr := a, status := 1 }

/-- LQPOST and LQSTAT (Table 6-2). -/
def State.writeLq (s : State) (ctx r v : Nat) : State :=
  if r < 0x80 then s.lqPost ctx (r / 8) (BitVec.ofNat 64 v)
  else
    let q := (r - 0x80) / 8
    let x := s.lqueue ctx q
    s.setLqueue ctx q { x with en := v.testBit 31, ovf := x.ovf && !v.testBit 30 }

/-- The page-unit registers of a context (Table 12-6). -/
def State.writePu (s : State) (ctx r v : Nat) : State :=
  let c := s.ctx ctx
  match r with
  | 0x00 =>
    if bitsOf v 63 56 = 1 then s.tlbinv ctx (some (bitsOf v 55 19))
    else if bitsOf v 63 56 = 2 then s.tlbinv ctx none
    else s
  | 0x08 => if bitsOf v 63 56 = 1 then s.pevictPage ctx (bitsOf v 55 19) else s
  | 0x10 => s.pushFrame ctx (bitsOf v 53 19)
  | 0x18 => s.setCtx ctx { c with puOvf := c.puOvf && !v.testBit 0 }
  | _ => s

/-- LPCTL and LPSTAT of a port (Table 13-11). -/
def State.writePort (s : State) (p r v : Nat) : State :=
  if 36 ≤ p then s
  else match r with
    | 0 => s.portEn p (v.testBit 0)
    | 8 =>
      let x := s.port p
      s.setPort p { x with badpkt := w1c x.badpkt (bitsOf v 47 32), soft := w1c x.soft (bitsOf v 31 0) }
    | _ => s

/-- A link window entry (Table 13-7): reserved bits read as zero. -/
def State.writeWindow (s : State) (w r v : Nat) : State :=
  let x := Map.get s.links.windows w {}
  let y : Window := if r = 0 then { x with lo := BitVec.ofNat 64 (v / 2 ^ 32 * 2 ^ 32) } else { x with hi := BitVec.ofNat 64 (v / 2 ^ 12 * 2 ^ 12) }
  { s with links := { s.links with windows := Map.set s.links.windows w y } }

/-- SPILLCMD (Table 20-7): the fields take what is written; a command is ignored while a spill is in progress. -/
def State.writeSpill (s : State) (v : Nat) : State :=
  let s1 := s.spillFields (bitsOf v 55 50) (bitsOf v 49 38) (bitsOf v 37 34) (bitsOf v 33 18)
  match bitsOf v 63 56 with
  | 1 => s1.startSpill
  | 2 => s1.startReadmit
  | _ => s1

/-- The management block (Table 27-5). -/
def State.writeMgmt (s : State) (r v : Nat) : State :=
  let g := s.mgmt
  let put := fun (g : Mgmt) => { s with mgmt := g }
  match r with
  | 0x10 => if bitsOf v 63 56 = 1 then s.attStart (bitsOf v 55 12) else put { g with attAddr := bitsOf v 55 12 }
  | 0x18 => put { g with ltol := bitsOf v 31 0 }
  | 0x28 => if 1000 ≤ bitsOf v 15 0 ∧ bitsOf v 15 0 ≤ 3600 then put { g with pcap := bitsOf v 15 0 } else s
  | 0x38 => put { g with thr := w1c g.thr (bitsOf v 31 0) }
  | 0x40 => put { g with softHbm := w1c g.softHbm (bitsOf v 63 32), softMem := w1c g.softMem (bitsOf v 31 16), softReg := w1c g.softReg (bitsOf v 15 0) }
  | 0x68 => if bitsOf v 63 56 = 1 then s.markPost (bitsOf v 55 6 * 64) else s
  | 0x70 => put { g with mkOvf := g.mkOvf && !v.testBit 61 }
  | _ =>
    if 0x78 ≤ r ∧ r ≤ 0x90 ∧ r % 8 = 0 ∧ g.mkState ≠ 1 then
      let i := (r - 0x78) / 8
      put { g with mkKey := BitVec.ofNat 256 (setBits g.mkKey.toNat (64 * i + 63) (64 * i) v) }
    else s

/-- A host write to a doubleword of BAR0.
DESIGN CHOICE, unsafe: assumption 35. -/
def State.barWrite (s : State) (off v : Nat) : State :=
  if off % 8 ≠ 0 then s
  else if 0x70000 ≤ off ∧ off < 0x70100 then s.writeMgmt (off - 0x70000) v
  else if s.mgmt.boot ≠ .ready then s
  else if 0x10000 ≤ off ∧ off < 0x11000 then (if off % 0x40 = 0 then s.writeCctl ((off - 0x10000) / 0x40) v else s)
  else if 0x20000 ≤ off ∧ off < 0x24000 then s.writeLq ((off - 0x20000) / 0x100) (off % 0x100) v
  else if 0x30000 ≤ off ∧ off < 0x31000 then s.writePu ((off - 0x30000) / 0x40) (off % 0x40) v
  else if 0x40000 ≤ off ∧ off < 0x40480 then s.writePort ((off - 0x40000) / 0x20) (off % 0x20) v
  else if off = 0x40800 then { s with links := { s.links with lmod := v % 1024 } }
  else if 0x50000 ≤ off ∧ off < 0x50400 then s.writeWindow ((off - 0x50000) / 0x10) (off % 0x10) v
  else if off = 0x60000 then s.writeSpill v
  else s

def execRegisterWrite (off : Nat) (v : BitVec 64) (s : State) : Out := .next (s.barWrite off v.toNat)

/-- Table 4-1 `state`. -/
def CtxSt.code : CtxSt → Nat
  | .free => 0
  | .loading => 1
  | .running => 2
  | .checkpointed => 3
  | .saving => 4
  | .saved => 5
  | .restoring => 6
  | .faulted => 7
  | .teardown => 8

/-- Table 13-11 `state`. -/
def PortSt.code : PortSt → Nat
  | .down => 0
  | .training => 1
  | .up => 2
  | .degraded => 3
  | .fenced => 4

/-- Table 27-5 `state` of BOOT. -/
def BootSt.code : BootSt → Nat
  | .rom => 0
  | .verify => 1
  | .ready => 2
  | .bootfail => 3

/-- The management block as the host reads it. -/
def State.readMgmt (s : State) (r : Nat) : Nat :=
  let g := s.mgmt
  match r with
  | 0x00 => 0x4A340001 * 2 ^ 32 + Config.siliconRevision.toNat
  | 0x08 => g.boot.code * 2 ^ 62 + Config.firmwareVersion.toNat
  | 0x10 => g.attAddr * 2 ^ 12 + g.attRes
  | 0x18 => g.ltol
  | 0x20 => g.idle
  | 0x28 => g.pcap
  | 0x30 => g.tsens.toNat
  | 0x38 => g.thr
  | 0x40 => g.softHbm * 2 ^ 32 + g.softMem * 2 ^ 16 + g.softReg
  | 0x70 => g.mkState * 2 ^ 62 + b2n g.mkOvf * 2 ^ 61 + g.mkStatus
  | _ => if 0x48 ≤ r ∧ r ≤ 0x60 ∧ r % 8 = 0 then bitsOf g.fences.toNat (8 * (r - 0x48) + 63) (8 * (r - 0x48)) else 0

/-- What a host read of a doubleword of BAR0 returns. -/
def State.barRead (s : State) (off : Nat) : Nat :=
  if off % 8 ≠ 0 then 0
  else if 0x70000 ≤ off ∧ off < 0x70100 then s.readMgmt (off - 0x70000)
  else if s.mgmt.boot ≠ .ready then 0
  else if 0x10000 ≤ off ∧ off < 0x11000 then
    let c := s.ctx ((off - 0x10000) / 0x40)
    if off % 0x40 = 0 then c.addr * 2 ^ 12 + c.st.code * 2 ^ 8 + c.status else 0
  else if 0x20000 ≤ off ∧ off < 0x24000 then
    let x := s.lqueue ((off - 0x20000) / 0x100) ((off % 0x80) / 8)
    if off % 0x100 < 0x80 then 0 else b2n x.en * 2 ^ 31 + b2n x.ovf * 2 ^ 30 + x.entries.length
  else if 0x30000 ≤ off ∧ off < 0x31000 then
    let c := s.ctx ((off - 0x30000) / 0x40)
    match off % 0x40 with
    | 0x00 => b2n (!c.inv.isEmpty)
    | 0x08 => c.pevictRes
    | 0x18 => c.pins.length * 2 ^ 48 + c.frames.length * 2 ^ 32 + b2n c.puOvf
    | _ => 0
  else if 0x40000 ≤ off ∧ off < 0x40480 then
    let x := s.port ((off - 0x40000) / 0x20)
    match off % 0x20 with
    | 0 => b2n x.en
    | 8 => x.st.code * 2 ^ 61 + x.gen * 2 ^ 60 + x.pair * 2 ^ 58 + x.badpkt * 2 ^ 32 + x.soft
    | _ => 0
  else if off = 0x40800 then s.links.lmod
  else if 0x50000 ≤ off ∧ off < 0x50400 then
    let w := Map.get s.links.windows ((off - 0x50000) / 0x10) {}
    if off % 0x10 = 0 then w.lo.toNat else w.hi.toNat
  else if off = 0x60000 then
    let g := s.mgmt
    g.spillCtx * 2 ^ 50 + g.spillCore * 2 ^ 38 + g.spillSlot * 2 ^ 34 + g.spillTid * 2 ^ 18 + g.spillRes
  else 0

end Sys2Proof.Machine
end

