-- ==== Sys2Proof/Machine/Turn.lean ====
section
/-! DEFINITION. The turns of the agents: a spindle core picks a slot, fetches and issues; a cycle ends; and the choice of the next turn
(R88, R108, R109, R111, R130, R200, R204, R241, R256, R331, R335, R48). -/

namespace Sys2Proof.Machine

/-! ### Fetch (R200, R241, R335) -/

/-- FETCH_FAULT of the issuing slot, at its pc.
DEDUCED, unsafe: assumption 19. DEDUCED, unsafe: assumption 51. -/
def State.fetchTrap (s : State) (reason status : Nat) : State :=
  s.dropFetched.trap { cause := 5, reason := reason, status := status, faddr := s.cur.pc.zeroExtend 64 }

/-- FETCH_FAULT: the fetch of the slot's next instruction fails, and the trap is taken before it issues. -/
def execFetchFault (s : State) : Out :=
  match s.fetchWord s.key with
  | .fault reason status => .next (s.fetchTrap reason status)
  | _ => .next s

/-- UNASSIGNED_OPCODE: ILLEGAL, precise. -/
def execUnassignedOpcode (_w : BitVec 32) (s : State) : Out := .next (s.trap tILLEGAL)

/-- The fetch waits for a walk, or for a word of another module.
DEDUCED, unsafe: assumption 44. -/
def State.fetchWaits (s : State) (f : Fetch) : State :=
  let x := s.cur
  match f with
  | .walk => (s.uncount s.key).walkWait x.pc.toNat x.pc.toNat false .fetch
  | .ask rmod a =>
    let s1 := (s.uncount s.key).egress (clusterOf s.coreNo) x.ctx { op := 2, dst := rmod, src := s.links.lmod, len := 3, addr := a } (.fetch s.key s.ctl.free)
    s1.setCur { s1.cur with st := .parkedReg, awaiting := [], wait := .fetch s.ctl.free, parkedAt := s.cycle }
  | _ => s

/-! ### Issue (R88, R108, R111, R256) -/

/-- The first instruction of a thread issues: one that a message began is an acquire at module scope; a launch becomes LAUNCHED. -/
def State.firstIssue (s : State) (k : Nat) : State :=
  let x := s.slot k
  if !x.first then s
  else
    let s1 := s.setSlot k { x with first := false, byMsg := false }
    let s2 := if x.byMsg then s1.dropL1 (k / 16) else s1
    match x.launch with
    | none => s2
    | some id =>
      match Map.find? s2.launches id with
      | none => s2
      | some l => if l.st = .loaded then { s2 with launches := Map.set s2.launches id { l with st := .launched } } else s2

/-- R111: an issue debits the issue balance by 1. -/
def State.debitIssue (s : State) (cl ctx : Nat) : State :=
  if (s.ctx ctx).budgets.issue = 0xFFFF then s
  else
    let b := s.balances cl ctx
    s.setBalances cl ctx { b with issue := b.issue - 1 }

/-- What every issue of slot k does: the round-robin pointer, the spacing, the budget, the waits of `yield` (R108, R111, R256). -/
def State.issued (s : State) (k : Nat) : State :=
  let c := s.core (k / 16)
  let s1 := s.setCore (k / 16) { c with rr := k % 16, lastIssue := some s.cycle, slotIssue := Map.set c.slotIssue (k % 16) s.cycle }
  let s2 := s1.setSlot k { s1.slot k with finishing := false, yieldFor := [], yieldUntil := 0 }
  ((s2.uncount k).debitIssue (clusterOf (k / 16)) (s.slot k).ctx).firstIssue k

/-- The slot that acts in this step. -/
def State.actAt (s : State) (k : Nat) : State := { s with ctl := { s.ctl with at_ := { core := k / 16, slot := k % 16, cluster := k / 256, die := k / 16384 } } }

/-- The acting unit is a Lathe. -/
def State.latheAt (s : State) (l : Nat) : State := { s with ctl := { s.ctl with at_ := { lathe := l, cluster := l / 4, die := l / 256 } } }

/-- A trap that fell due earlier is taken before the next issue (R331).
DEDUCED, unsafe: assumption 52. -/
def State.takeLate (s : State) (k : Nat) (t : LateTrap) : State :=
  let s1 := (s.releasePfx k).setSlot k { (s.releasePfx k).slot k with late := (s.slot k).late.drop 1, fetched := [], looked := [] }
  s1.trapSlot k { cause := t.cause, code := t.code, status := t.status, reason := t.reason, faddr := t.faddr } t.pc t.tpc

/-- The instruction takes pins. -/
def takesPins (i : Instr) : Bool :=
  match i with
  | .pfxl _ _ _ => true
  | .pin _ _ _ => true
  | _ => false

/-- A `pfxl` or a `pin` that waited gives up its pins when another instruction issues in its place (R186). -/
def State.keepsPfx (s : State) (k : Nat) (i : Instr) : State := if takesPins i then s else s.releasePfx k

/-- The instruction of a word issues from slot k; `run` is the meaning of instructions. A word with a field that must be zero and is not
traps ILLEGAL (R201, R203). -/
def State.issueWord (run : Instr → State → Out) (s : State) (k : Nat) (w : Word32) : Out :=
  match decodeSpindle w with
  | .ok i => run i ((s.keepsPfx k i).issued k)
  | .error _ => .next (((s.releasePfx k).issued k).trap tILLEGAL)


/-- Slot k's turn.
DEDUCED, unsafe: assumption 52. -/
def State.slotTurn (run : Instr → State → Out) (s : State) (k : Nat) : Out :=
  match s.cur.late, s.cur.finishing with
  | t :: _, false => .next (s.takeLate k t)
  | _, _ =>
    match s.fetchWord k with
    | .word w => (s.fetchLooked k).issueWord run k w
    | .fault _ _ => run .fetchFault (s.releasePfx k)
    | f => .next (s.fetchWaits f)

/-- A spindle core's turn: at most one issue a cycle. -/
def State.spindleTurn (run : Instr → State → Out) (s : State) (core : Nat) : Out :=
  if s.coreFree core then
    match s.pickReady core with
    | none => .next s
    | some k => State.slotTurn run (s.actAt k) k
  else .next s

/-! ### The end of a cycle -/

/-- Chimes whose countdown has reached zero seal their tiles, after the explicit seals of the cycle (R130, R132). -/
def State.dueChimes (s : State) : State :=
  ((s.tiles.filter (fun p => p.2.sealsNow s.cycle)).map (·.1)).foldl (fun t k => t.chimeDue k) s

/-- Results whose latency is bounded land (R221). -/
def State.dueFills (s : State) : State :=
  let due := s.slots.flatMap (fun p => (p.2.fills.filter (fun f => (f.due.map (fun c => decide (c ≤ s.cycle))).getD false)).map (fun f => (p.1, f)))
  if due.isEmpty then s else (due.foldl (fun t p => t.land p.1 p.2) s).spillCommand

/-- Posts that waited for room, or for the bytes of `smx`, are made (R94, R310). -/
def State.duePostsAll (s : State) : State := (s.lathes.map (·.1)).foldl (fun t l => t.duePosts l) s

/-- Tiles whose last read has ended are returned (R304). -/
def State.dueReturns (s : State) : State :=
  ((s.tiles.filter (fun p => p.2.returnLate)).map (·.1)).foldl (fun t k => t.tretLate k) s

/-- Entries of the store-gathering buffers that were last merged 64 cycles ago drain (R48). -/
def State.dueDrains (s : State) : State :=
  (s.cores.map (·.1)).foldl (fun t n => if (t.core n).gather.isEmpty then t
    else (t.drainThese n (fun e => decide (e.mergedAt + 64 ≤ t.cycle))).1) s

/-- Trap records that wait are written while their rings have room (R333). -/
def State.dueRecords (s : State) : State :=
  ((s.ctxs.filter (fun p => !p.2.recs.isEmpty)).map (·.1)).foldl (fun t c => t.flushRecords c (t.ctx c).recs.length) s

/-- A cycle ends and the next begins.
DESIGN CHOICE, unsafe: assumption 1. DESIGN CHOICE, unsafe: assumption 18. DEDUCED, unsafe: assumption 25. -/
def State.tick (s : State) : State :=
  let s1 := s.dueChimes
  (((((({ s1 with cycle := s1.cycle + 1 }).tempoPeriod).dueFills).duePostsAll).dueReturns).dueDrains).dueRecords

/-! ### Whose turn it is (assumption 1) -/

/-- The rows of the table that are events of the device or its host. -/
def isEvent (i : Instr) : Bool :=
  match i with
  | .unassignedOpcode _ => false
  | .illegalBundle _ => false
  | .fetchFault => false
  | .chime => false
  | i => (encodeSpindle i).isNone && (kindOf i).isNone

/-- The events that the module's own units decide, whose unit is a Place. -/
def ownEvents : List Instr :=
  [.loadingChecks, .saveWritten, .restoreComplete, .teardownComplete, .tlbinvDone, .attestationDone, .idleEntry, .idleExit,
   .launchHeadRead, .dependencePoll, .dispatch, .tempoPeriod, .messageArrive, .ringAccept, .messageAdmit, .dequePop,
   .stealProbe, .registerFill, .directWrite, .slotWake, .spill, .spillReadmit, .orphanRestart, .l1LineExpiry, .storeBufferDrain,
   .nwaitWake, .nwaitPoll, .hypothesisTakeUp, .tollComplete, .walkComplete, .pageFillDone, .evictionCommit, .writebackDone,
   .chuckAccept, .clapperRow, .transferComplete, .trainingTimeout, .linkEgress, .linkWrite, .linkRead, .linkAmo, .linkNotify,
   .tilewr, .resp, .linkRequestTimeout, .latheTrap, .gangIssue, .tretAfterRead]

/-- The unit that a number names, digit by digit.
DESIGN CHOICE, unsafe: assumption 1. -/
def placeOf (n : Nat) : Place :=
  { die := n % 4, cluster := n / 4 % 256, core := n / 2 ^ 10 % 4096, slot := n / 2 ^ 22 % 16, lathe := n / 2 ^ 26 % 1024,
    ctx := n / 2 ^ 36 % 64, q := n / 2 ^ 42 % 16, reg := n / 2 ^ 46 % 32, idx := n / 2 ^ 51 % 1024, port := n / 2 ^ 61 % 64,
    tid := n / 2 ^ 67 % 2 ^ 16, vpn := n / 2 ^ 83 % 2 ^ 37, tag := n / 2 ^ 120 % 2 ^ 12, n := n / 2 ^ 132 }

/-- A turn that a free number stands for: any core, Lathe or event of the module's own, or the end of the cycle.
DEDUCED, unsafe: assumption 63. -/
def turnOf (n : Nat) : Turn :=
  match n % 4 with
  | 0 => .spindle (n / 4 % 4096)
  | 1 => .lathe (n / 4 % 1024)
  | 2 => .tick
  | _ => .event (placeOf (n / 256)) (ownEvents.getD (n / 4 % 64) .tempoPeriod)

/-! ### Turns of one cycle that others come after (R108, R109, R132) -/

/-- The cores that are to issue in this cycle, in ascending order, with the instructions they have at hand. -/
def State.coresDue (s : State) : List (Nat × Option Instr) :=
  ((s.slots.map (fun p => p.1 / 16)).eraseDups).filterMap (fun c => (s.issuing c).map (fun p => (c, p.2)))

/-- The instruction seals a tile. -/
def sealsTile (i : Instr) : Bool :=
  match i with
  | .seal _ _ _ => true
  | .tseal _ => true
  | _ => false

/-- The instruction is a request to the tile port, or an event that may write a tile (R131). -/
def asksPort (i : Instr) : Bool :=
  match i with
  | .tst _ _ _ _ _ => true
  | .tsr _ _ _ _ _ => true
  | .tsq _ _ _ _ _ => true
  | .tstLathe _ _ _ _ _ => true
  | .smx _ _ _ _ => true
  | .tilewr => true
  | .chuckAccept => true
  | .transferComplete => true
  | .clapperRow => true
  | i => sealsTile i

/-- The operations that the turn of a Lathe may issue: those of its next bundle, and of the gang bundles that wait for it (R138). -/
def State.turnOps (s : State) (l : Nat) : List Instr :=
  match s.nextBundle l with
  | none => []
  | some b =>
    let gang := if b.gang then (lathesOf (l / 4)).flatMap (fun m => ((s.lathe m).gangBundle.map (·.ops)).getD []) else []
    (b.ops ++ gang).map (·.2)

/-- The turn may bring a request to the tile port. -/
def State.turnAsksPort (s : State) (t : Turn) : Bool :=
  match t with
  | .spindle c => (s.issuing c).any (fun p => p.2.any asksPort)
  | .lathe l => (s.turnOps l).any asksPort
  | .event at_ .gangIssue => (lathesOf at_.cluster).any (fun l => (s.turnOps l).any asksPort)
  | .event _ i => asksPort i
  | _ => false

/-- Within a cycle the seals of the cores, ascending, and then those of the Lathes come before other requests to the tile port (R132); and
a cycle does not end before every core with a ready slot has issued (R108, R109) and every Lathe that may issue has tried to (R276).
DEDUCED, unsafe: assumption 73. -/
def State.goesFirst (s : State) (t : Turn) : Option Turn :=
  let ends := t == .tick
  if s.mgmt.off || !(ends || s.turnAsksPort t) then none
  else
    let cores := s.coresDue
    let ls := (s.lathes.map (·.1)).filter s.latheDue
    let seals := (cores.filter (fun p => p.2.any sealsTile)).map (fun p => Turn.spindle p.1)
      ++ (ls.filter (fun l => (s.turnOps l).any sealsTile)).map Turn.lathe
    let rest := if ends then cores.map (fun p => Turn.spindle p.1) ++ ls.map Turn.lathe else []
    (seals ++ rest).head?.filter (fun u => u != t)

/-- The next turn: the first of those that come, or a free one; or one that goes before it in this cycle.
DESIGN CHOICE, unsafe: assumption 1. -/
def State.nextTurn (s : State) : Turn × State :=
  let p := match s.ctl.turns with
    | t :: rest => (t, { s with ctl := { s.ctl with turns := rest } })
    | [] => (turnOf (Config.freeNat s.ctl.free), s.tookFree)
  match s.goesFirst p.1 with
  | none => p
  | some u => (u, { p.2 with ctl := { p.2.ctl with turns := p.1 :: p.2.ctl.turns } })

/-- The Lathe's turn in this cycle is taken. -/
def State.latheTakes (s : State) (l : Nat) : State :=
  if s.latheMay l then (s.setLathe l { s.lathe l with turnAt := some s.cycle }).latheTurn l else s

/-- A turn is taken. Once the load has been removed only a module reset does anything (R368).
DESIGN CHOICE, unsafe: assumption 1. -/
def State.takeTurn (run : Instr → State → Out) (t : Turn) (s : State) : Out :=
  match t with
  | .event at_ i =>
    if isEvent i ∧ (s.mgmt.off → i = .moduleReset) then run i { s with ctl := { s.ctl with at_ := at_ } } else .next s
  | .spindle core => if s.mgmt.off then .next s else s.spindleTurn run core
  | .lathe l => if s.mgmt.off then .next s else .next ((s.latheAt l).latheTakes l)
  | .tick => if s.mgmt.off then .next s else .next s.tick
  | .hostStore a b => .next { s with host := Memory.writeByte s.host a b }
  | .hostError n => .next { s with hostBad := if s.hostBad.contains n then s.hostBad else n :: s.hostBad }

/-- What follows a turn at once: launches that are done end (R90), and the waiter entries whose word a write has raised are met (R148). -/
def State.afterStep (s : State) : State := s.finishLaunches.meetWaiters

/-- The outcome of a turn, and what follows it. -/
def outAfter (o : Out) : Out :=
  match o with
  | .next s => .next s.afterStep
  | o => o

/-- One step: the next turn is taken.
DESIGN CHOICE, unsafe: assumption 1. DESIGN CHOICE, unsafe: assumption 35. DEDUCED, unsafe: assumption 63. -/
def State.takeStep (run : Instr → State → Out) (s : State) : Out := outAfter (State.takeTurn run s.nextTurn.1 s.nextTurn.2)

end Sys2Proof.Machine
end

