-- ==== Sys2Proof/Machine/Dispatch.lean ====
section
/-! DEFINITION. Which meaning each instruction has. -/

namespace Sys2Proof.Machine

/-- The effect of an instruction, or of an event, in a state: at the slot, Lathe or unit that the state's `ctl.at_` names. -/
def exec (i : Instr) (s : State) : Host.Outcome State Fault Refusal :=
  match i with
  | .registerWrite off v => Sys2Proof.Machine.execRegisterWrite off v s
  | .load ctx addr => Sys2Proof.Machine.execLoad ctx addr s
  | .save ctx addr => Sys2Proof.Machine.execSave ctx addr s
  | .force ctx addr => Sys2Proof.Machine.execForce ctx addr s
  | .restore ctx addr => Sys2Proof.Machine.execRestore ctx addr s
  | .teardown ctx addr => Sys2Proof.Machine.execTeardown ctx addr s
  | .lqpost ctx q rec => Sys2Proof.Machine.execLqpost ctx q rec s
  | .tlbinvPage ctx vpn => Sys2Proof.Machine.execTlbinvPage ctx vpn s
  | .tlbinvContext ctx => Sys2Proof.Machine.execTlbinvContext ctx s
  | .pevict ctx vpn => Sys2Proof.Machine.execPevict ctx vpn s
  | .fpush ctx frame => Sys2Proof.Machine.execFpush ctx frame s
  | .portEnable port => Sys2Proof.Machine.execPortEnable port s
  | .portDisable port => Sys2Proof.Machine.execPortDisable port s
  | .spillcmdSpill ctx core slot => Sys2Proof.Machine.execSpillcmdSpill ctx core slot s
  | .spillcmdReadmit ctx tid => Sys2Proof.Machine.execSpillcmdReadmit ctx tid s
  | .attreqStart addr => Sys2Proof.Machine.execAttreqStart addr s
  | .mkpost desc => Sys2Proof.Machine.execMkpost desc s
  | .markJobComplete hostOk => Sys2Proof.Machine.execMarkJobComplete hostOk s
  | .throttleInterval power temps => Sys2Proof.Machine.execThrottleInterval power temps s
  | .thermalTrip temps => Sys2Proof.Machine.execThermalTrip temps s
  | .flitReceive port flit laneErr => Sys2Proof.Machine.execFlitReceive port flit laneErr s
  | .trainingDone port lanes gen => Sys2Proof.Machine.execTrainingDone port lanes gen s
  | .hostLinkTrain mode => Sys2Proof.Machine.execHostLinkTrain mode s
  | .hostMemAccess write addr n data => Sys2Proof.Machine.execHostMemAccess write addr n data s
  | .errorRetry site ok => Sys2Proof.Machine.execErrorRetry site ok s
  | .addi d a ta imm => Sys2Proof.Machine.execAddi d a ta imm s
  | .andi d a ta imm => Sys2Proof.Machine.execAndi d a ta imm s
  | .ori d a ta imm => Sys2Proof.Machine.execOri d a ta imm s
  | .xori d a ta imm => Sys2Proof.Machine.execXori d a ta imm s
  | .shli d a ta imm => Sys2Proof.Machine.execShli d a ta imm s
  | .shri d a ta imm => Sys2Proof.Machine.execShri d a ta imm s
  | .srai d a ta imm => Sys2Proof.Machine.execSrai d a ta imm s
  | .cmpeqi d a ta imm => Sys2Proof.Machine.execCmpeqi d a ta imm s
  | .cmplti d a ta imm => Sys2Proof.Machine.execCmplti d a ta imm s
  | .movi d imm => Sys2Proof.Machine.execMovi d imm s
  | .movhi d a ta imm => Sys2Proof.Machine.execMovhi d a ta imm s
  | .bfx d a ta wm1 pos => Sys2Proof.Machine.execBfx d a ta wm1 pos s
  | .bfi d a ta wm1 pos => Sys2Proof.Machine.execBfi d a ta wm1 pos s
  | .fpack d a ta entry => Sys2Proof.Machine.execFpack d a ta entry s
  | .fpick d a ta entry => Sys2Proof.Machine.execFpick d a ta entry s
  | .add d a b ta tb => Sys2Proof.Machine.execAdd d a b ta tb s
  | .sub d a b ta tb => Sys2Proof.Machine.execSub d a b ta tb s
  | .mul d a b ta tb => Sys2Proof.Machine.execMul d a b ta tb s
  | .mulh d a b ta tb => Sys2Proof.Machine.execMulh d a b ta tb s
  | .mulhz d a b ta tb => Sys2Proof.Machine.execMulhz d a b ta tb s
  | .div d a b ta tb => Sys2Proof.Machine.execDiv d a b ta tb s
  | .divz d a b ta tb => Sys2Proof.Machine.execDivz d a b ta tb s
  | .rem d a b ta tb => Sys2Proof.Machine.execRem d a b ta tb s
  | .remz d a b ta tb => Sys2Proof.Machine.execRemz d a b ta tb s
  | .and d a b ta tb => Sys2Proof.Machine.execAnd d a b ta tb s
  | .or d a b ta tb => Sys2Proof.Machine.execOr d a b ta tb s
  | .xor d a b ta tb => Sys2Proof.Machine.execXor d a b ta tb s
  | .shl d a b ta tb => Sys2Proof.Machine.execShl d a b ta tb s
  | .shr d a b ta tb => Sys2Proof.Machine.execShr d a b ta tb s
  | .sra d a b ta tb => Sys2Proof.Machine.execSra d a b ta tb s
  | .rotl d a b ta tb => Sys2Proof.Machine.execRotl d a b ta tb s
  | .min d a b ta tb => Sys2Proof.Machine.execMin d a b ta tb s
  | .max d a b ta tb => Sys2Proof.Machine.execMax d a b ta tb s
  | .minz d a b ta tb => Sys2Proof.Machine.execMinz d a b ta tb s
  | .maxz d a b ta tb => Sys2Proof.Machine.execMaxz d a b ta tb s
  | .cmpeq d a b ta tb => Sys2Proof.Machine.execCmpeq d a b ta tb s
  | .cmplt d a b ta tb => Sys2Proof.Machine.execCmplt d a b ta tb s
  | .cmpltz d a b ta tb => Sys2Proof.Machine.execCmpltz d a b ta tb s
  | .sel d a b ta tb => Sys2Proof.Machine.execSel d a b ta tb s
  | .clz d a ta => Sys2Proof.Machine.execClz d a ta s
  | .ctz d a ta => Sys2Proof.Machine.execCtz d a ta s
  | .popc d a ta => Sys2Proof.Machine.execPopc d a ta s
  | .fadd d a b ta tb => Sys2Proof.Machine.execFadd d a b ta tb s
  | .fsub d a b ta tb => Sys2Proof.Machine.execFsub d a b ta tb s
  | .fmul d a b ta tb => Sys2Proof.Machine.execFmul d a b ta tb s
  | .fmadd d a b ta tb => Sys2Proof.Machine.execFmadd d a b ta tb s
  | .fdiv d a b ta tb => Sys2Proof.Machine.execFdiv d a b ta tb s
  | .fmin d a b ta tb => Sys2Proof.Machine.execFmin d a b ta tb s
  | .fmax d a b ta tb => Sys2Proof.Machine.execFmax d a b ta tb s
  | .fcmp d a b ta tb => Sys2Proof.Machine.execFcmp d a b ta tb s
  | .cvtfi d a ta => Sys2Proof.Machine.execCvtfi d a ta s
  | .cvtif d a ta => Sys2Proof.Machine.execCvtif d a ta s
  | .cvtffN d a fmt ta => Sys2Proof.Machine.execCvtffN d a fmt ta s
  | .cvtffW d a fmt ta => Sys2Proof.Machine.execCvtffW d a fmt ta s
  | .padd d a b ta tb => Sys2Proof.Machine.execPadd d a b ta tb s
  | .pidx d a b ta tb => Sys2Proof.Machine.execPidx d a b ta tb s
  | .ptag d a b ta tb => Sys2Proof.Machine.execPtag d a b ta tb s
  | .pstrip d a ta => Sys2Proof.Machine.execPstrip d a ta s
  | .movk d index => Sys2Proof.Machine.execMovk d index s
  | .movkd d index => Sys2Proof.Machine.execMovkd d index s
  | .getk d k => Sys2Proof.Machine.execGetk d k s
  | .setk a ta k => Sys2Proof.Machine.execSetk a ta k s
  | .trap code => Sys2Proof.Machine.execTrap code s
  | .brk code => Sys2Proof.Machine.execBrk code s
  | .ldB d base ta scope order off => Sys2Proof.Machine.execLdB d base ta scope order off s
  | .ldH d base ta scope order off => Sys2Proof.Machine.execLdH d base ta scope order off s
  | .ldW d base ta scope order off => Sys2Proof.Machine.execLdW d base ta scope order off s
  | .ldD d base ta scope order off => Sys2Proof.Machine.execLdD d base ta scope order off s
  | .ldzB d base ta scope order off => Sys2Proof.Machine.execLdzB d base ta scope order off s
  | .ldzH d base ta scope order off => Sys2Proof.Machine.execLdzH d base ta scope order off s
  | .ldzW d base ta scope order off => Sys2Proof.Machine.execLdzW d base ta scope order off s
  | .stB d base ta scope order off => Sys2Proof.Machine.execStB d base ta scope order off s
  | .stH d base ta scope order off => Sys2Proof.Machine.execStH d base ta scope order off s
  | .stW d base ta scope order off => Sys2Proof.Machine.execStW d base ta scope order off s
  | .stD d base ta scope order off => Sys2Proof.Machine.execStD d base ta scope order off s
  | .ldt d base ta scope order off => Sys2Proof.Machine.execLdt d base ta scope order off s
  | .stt d base ta scope order off => Sys2Proof.Machine.execStt d base ta scope order off s
  | .pf base ta off => Sys2Proof.Machine.execPf base ta off s
  | .fence scope order => Sys2Proof.Machine.execFence scope order s
  | .amoSwap d base ta scope order off => Sys2Proof.Machine.execAmoSwap d base ta scope order off s
  | .amoAdd d base ta scope order off => Sys2Proof.Machine.execAmoAdd d base ta scope order off s
  | .amoAnd d base ta scope order off => Sys2Proof.Machine.execAmoAnd d base ta scope order off s
  | .amoOr d base ta scope order off => Sys2Proof.Machine.execAmoOr d base ta scope order off s
  | .amoXor d base ta scope order off => Sys2Proof.Machine.execAmoXor d base ta scope order off s
  | .amoMin d base ta scope order off => Sys2Proof.Machine.execAmoMin d base ta scope order off s
  | .amoMax d base ta scope order off => Sys2Proof.Machine.execAmoMax d base ta scope order off s
  | .amoMinz d base ta scope order off => Sys2Proof.Machine.execAmoMinz d base ta scope order off s
  | .amoMaxz d base ta scope order off => Sys2Proof.Machine.execAmoMaxz d base ta scope order off s
  | .amoFadd d base ta scope order off => Sys2Proof.Machine.execAmoFadd d base ta scope order off s
  | .amoAddBatch d base ta scope order off => Sys2Proof.Machine.execAmoAddBatch d base ta scope order off s
  | .cas d base ta scope order off => Sys2Proof.Machine.execCas d base ta scope order off s
  | .notify d base ta scope off => Sys2Proof.Machine.execNotify d base ta scope off s
  | .nwait d base ta scope off => Sys2Proof.Machine.execNwait d base ta scope off s
  | .beq a b ta tb disp => Sys2Proof.Machine.execBeq a b ta tb disp s
  | .bne a b ta tb disp => Sys2Proof.Machine.execBne a b ta tb disp s
  | .blt a b ta tb disp => Sys2Proof.Machine.execBlt a b ta tb disp s
  | .bge a b ta tb disp => Sys2Proof.Machine.execBge a b ta tb disp s
  | .bltz a ta disp => Sys2Proof.Machine.execBltz a ta disp s
  | .bgez a ta disp => Sys2Proof.Machine.execBgez a ta disp s
  | .b disp => Sys2Proof.Machine.execB disp s
  | .bl disp => Sys2Proof.Machine.execBl disp s
  | .jr a ta => Sys2Proof.Machine.execJr a ta s
  | .jlr d a ta => Sys2Proof.Machine.execJlr d a ta s
  | .purge d => Sys2Proof.Machine.execPurge d s
  | .rfill a b ta tb => Sys2Proof.Machine.execRfill a b ta tb s
  | .send a ta => Sys2Proof.Machine.execSend a ta s
  | .migrate a ta => Sys2Proof.Machine.execMigrate a ta s
  | .mhome d a ta => Sys2Proof.Machine.execMhome d a ta s
  | .setmig a ta => Sys2Proof.Machine.execSetmig a ta s
  | .spawn d a ta => Sys2Proof.Machine.execSpawn d a ta s
  | .dqpush d a ta => Sys2Proof.Machine.execDqpush d a ta s
  | .dqpop d => Sys2Proof.Machine.execDqpop d s
  | .launch a b ta tb => Sys2Proof.Machine.execLaunch a b ta tb s
  | .topen d a b ta tb => Sys2Proof.Machine.execTopen d a b ta tb s
  | .tst d a b ta tb => Sys2Proof.Machine.execTst d a b ta tb s
  | .tsr d a b ta tb => Sys2Proof.Machine.execTsr d a b ta tb s
  | .tsq d a b ta tb => Sys2Proof.Machine.execTsq d a b ta tb s
  | .seal d a ta => Sys2Proof.Machine.execSeal d a ta s
  | .tret a ta => Sys2Proof.Machine.execTret a ta s
  | .tinfo d a b ta tb => Sys2Proof.Machine.execTinfo d a b ta tb s
  | .qpost a b ta tb => Sys2Proof.Machine.execQpost a b ta tb s
  | .qeos a ta => Sys2Proof.Machine.execQeos a ta s
  | .cpush a ta => Sys2Proof.Machine.execCpush a ta s
  | .cstat d a ta => Sys2Proof.Machine.execCstat d a ta s
  | .pbinv a ta => Sys2Proof.Machine.execPbinv a ta s
  | .barArrive d a ta => Sys2Proof.Machine.execBarArrive d a ta s
  | .barWait a b ta tb => Sys2Proof.Machine.execBarWait a b ta tb s
  | .barRed d a b ta tb => Sys2Proof.Machine.execBarRed d a b ta tb s
  | .hnew d a ta => Sys2Proof.Machine.execHnew d a ta s
  | .hset a ta => Sys2Proof.Machine.execHset a ta s
  | .hconf a ta => Sys2Proof.Machine.execHconf a ta s
  | .href a ta => Sys2Proof.Machine.execHref a ta s
  | .gwalk d a b ta tb => Sys2Proof.Machine.execGwalk d a b ta tb s
  | .hashb d a ta => Sys2Proof.Machine.execHashb d a ta s
  | .pfxl d a ta => Sys2Proof.Machine.execPfxl d a ta s
  | .pin d a ta => Sys2Proof.Machine.execPin d a ta s
  | .unpin d a ta => Sys2Proof.Machine.execUnpin d a ta s
  | .ckpt a ta => Sys2Proof.Machine.execCkpt a ta s
  | .lresume a ta => Sys2Proof.Machine.execLresume a ta s
  | .vjoin a b ta tb => Sys2Proof.Machine.execVjoin a b ta tb s
  | .sadd qd qa ri imm => Sys2Proof.Machine.execSadd qd qa ri imm s
  | .ssub qd qa ri imm => Sys2Proof.Machine.execSsub qd qa ri imm s
  | .smul qd qa ri imm => Sys2Proof.Machine.execSmul qd qa ri imm s
  | .sand qd qa ri imm => Sys2Proof.Machine.execSand qd qa ri imm s
  | .sor qd qa ri imm => Sys2Proof.Machine.execSor qd qa ri imm s
  | .sxor qd qa ri imm => Sys2Proof.Machine.execSxor qd qa ri imm s
  | .sshl qd qa ri imm => Sys2Proof.Machine.execSshl qd qa ri imm s
  | .sshr qd qa ri imm => Sys2Proof.Machine.execSshr qd qa ri imm s
  | .scmp qd qa qb cc => Sys2Proof.Machine.execScmp qd qa qb cc s
  | .smovi qd imm => Sys2Proof.Machine.execSmovi qd imm s
  | .smovk qd index => Sys2Proof.Machine.execSmovk qd index s
  | .sb cond qa disp => Sys2Proof.Machine.execSb cond qa disp s
  | .loop ri qa imm => Sys2Proof.Machine.execLoop ri qa imm s
  | .qwait hd qd => Sys2Proof.Machine.execQwait hd qd s
  | .qpostLathe l h => Sys2Proof.Machine.execQpostLathe l h s
  | .qeosLathe l => Sys2Proof.Machine.execQeosLathe l s
  | .tretLathe h => Sys2Proof.Machine.execTretLathe h s
  | .getkLathe qd k => Sys2Proof.Machine.execGetkLathe qd k s
  | .setkLathe qa k => Sys2Proof.Machine.execSetkLathe qa k s
  | .trapsw code => Sys2Proof.Machine.execTrapsw code s
  | .vadd vd va vb ty => Sys2Proof.Machine.execVadd vd va vb ty s
  | .vsub vd va vb ty => Sys2Proof.Machine.execVsub vd va vb ty s
  | .vmul vd va vb ty => Sys2Proof.Machine.execVmul vd va vb ty s
  | .vfma vd va vb ty => Sys2Proof.Machine.execVfma vd va vb ty s
  | .vmax vd va vb ty => Sys2Proof.Machine.execVmax vd va vb ty s
  | .vmin vd va vb ty => Sys2Proof.Machine.execVmin vd va vb ty s
  | .vand vd va vb ty => Sys2Proof.Machine.execVand vd va vb ty s
  | .vor vd va vb ty => Sys2Proof.Machine.execVor vd va vb ty s
  | .vxor vd va vb ty => Sys2Proof.Machine.execVxor vd va vb ty s
  | .vshl vd va vb ty => Sys2Proof.Machine.execVshl vd va vb ty s
  | .vshr vd va vb ty => Sys2Proof.Machine.execVshr vd va vb ty s
  | .vcvt vd va ty st => Sys2Proof.Machine.execVcvt vd va ty st s
  | .vbcast vd qa ty => Sys2Proof.Machine.execVbcast vd qa ty s
  | .vred qd va ty op => Sys2Proof.Machine.execVred qd va ty op s
  | .vsel vd va vb ty => Sys2Proof.Machine.execVsel vd va vb ty s
  | .vcmp vd va vb ty cc => Sys2Proof.Machine.execVcmp vd va vb ty cc s
  | .vmac16 vd va vb ty => Sys2Proof.Machine.execVmac16 vd va vb ty s
  | .vrow vd acc ty part row => Sys2Proof.Machine.execVrow vd acc ty part row s
  | .vwacc acc va ty part row => Sys2Proof.Machine.execVwacc acc va ty part row s
  | .fexp2 vd va => Sys2Proof.Machine.execFexp2 vd va s
  | .flog2 vd va => Sys2Proof.Machine.execFlog2 vd va s
  | .frcp vd va => Sys2Proof.Machine.execFrcp vd va s
  | .frsqrt vd va => Sys2Proof.Machine.execFrsqrt vd va s
  | .fsin vd va => Sys2Proof.Machine.execFsin vd va s
  | .fcos vd va => Sys2Proof.Machine.execFcos vd va s
  | .smx ao asc qs hout => Sys2Proof.Machine.execSmx ao asc qs hout s
  | .smxm ad ae => Sys2Proof.Machine.execSmxm ad ae s
  | .smxf acc => Sys2Proof.Machine.execSmxf acc s
  | .smxz acc => Sys2Proof.Machine.execSmxz acc s
  | .mma ad hA hB na nb dis qo => Sys2Proof.Machine.execMma ad hA hB na nb dis qo s
  | .mmat ad hA hB na nb dis qo => Sys2Proof.Machine.execMmat ad hA hB na nb dis qo s
  | .xchg vd va => Sys2Proof.Machine.execXchg vd va s
  | .escl e => Sys2Proof.Machine.execEscl e s
  | .tld vd h row chunk => Sys2Proof.Machine.execTld vd h row chunk s
  | .tstLathe va h row chunk fin => Sys2Proof.Machine.execTstLathe va h row chunk fin s
  | .tmask qd h sel => Sys2Proof.Machine.execTmask qd h sel s
  | .tout va qa qb => Sys2Proof.Machine.execTout va qa qb s
  | .toutC va qa qb => Sys2Proof.Machine.execToutC va qa qb s
  | .tseal h => Sys2Proof.Machine.execTseal h s
  | .unassignedOpcode w => Sys2Proof.Machine.execUnassignedOpcode w s
  | .illegalBundle slot => Sys2Proof.Machine.execIllegalBundle slot s
  | .loadingChecks => Sys2Proof.Machine.execLoadingChecks s
  | .saveWritten => Sys2Proof.Machine.execSaveWritten s
  | .restoreComplete => Sys2Proof.Machine.execRestoreComplete s
  | .teardownComplete => Sys2Proof.Machine.execTeardownComplete s
  | .tlbinvDone => Sys2Proof.Machine.execTlbinvDone s
  | .attestationDone => Sys2Proof.Machine.execAttestationDone s
  | .moduleReset => Sys2Proof.Machine.execModuleReset s
  | .firmwareVerify => Sys2Proof.Machine.execFirmwareVerify s
  | .idleEntry => Sys2Proof.Machine.execIdleEntry s
  | .idleExit => Sys2Proof.Machine.execIdleExit s
  | .launchHeadRead => Sys2Proof.Machine.execLaunchHeadRead s
  | .dependencePoll => Sys2Proof.Machine.execDependencePoll s
  | .dispatch => Sys2Proof.Machine.execDispatch s
  | .tempoPeriod => Sys2Proof.Machine.execTempoPeriod s
  | .chime => Sys2Proof.Machine.execChime s
  | .messageArrive => Sys2Proof.Machine.execMessageArrive s
  | .ringAccept => Sys2Proof.Machine.execRingAccept s
  | .messageAdmit => Sys2Proof.Machine.execMessageAdmit s
  | .dequePop => Sys2Proof.Machine.execDequePop s
  | .stealProbe => Sys2Proof.Machine.execStealProbe s
  | .registerFill => Sys2Proof.Machine.execRegisterFill s
  | .directWrite => Sys2Proof.Machine.execDirectWrite s
  | .slotWake => Sys2Proof.Machine.execSlotWake s
  | .spill => Sys2Proof.Machine.execSpill s
  | .spillReadmit => Sys2Proof.Machine.execSpillReadmit s
  | .orphanRestart => Sys2Proof.Machine.execOrphanRestart s
  | .l1LineExpiry => Sys2Proof.Machine.execL1LineExpiry s
  | .storeBufferDrain => Sys2Proof.Machine.execStoreBufferDrain s
  | .nwaitWake => Sys2Proof.Machine.execNwaitWake s
  | .nwaitPoll => Sys2Proof.Machine.execNwaitPoll s
  | .hypothesisTakeUp => Sys2Proof.Machine.execHypothesisTakeUp s
  | .tollComplete => Sys2Proof.Machine.execTollComplete s
  | .walkComplete => Sys2Proof.Machine.execWalkComplete s
  | .pageFillDone => Sys2Proof.Machine.execPageFillDone s
  | .evictionCommit => Sys2Proof.Machine.execEvictionCommit s
  | .writebackDone => Sys2Proof.Machine.execWritebackDone s
  | .chuckAccept => Sys2Proof.Machine.execChuckAccept s
  | .clapperRow => Sys2Proof.Machine.execClapperRow s
  | .transferComplete => Sys2Proof.Machine.execTransferComplete s
  | .trainingTimeout => Sys2Proof.Machine.execTrainingTimeout s
  | .linkEgress => Sys2Proof.Machine.execLinkEgress s
  | .linkWrite => Sys2Proof.Machine.execLinkWrite s
  | .linkRead => Sys2Proof.Machine.execLinkRead s
  | .linkAmo => Sys2Proof.Machine.execLinkAmo s
  | .linkNotify => Sys2Proof.Machine.execLinkNotify s
  | .tilewr => Sys2Proof.Machine.execTilewr s
  | .resp => Sys2Proof.Machine.execResp s
  | .linkRequestTimeout => Sys2Proof.Machine.execLinkRequestTimeout s
  | .latheTrap => Sys2Proof.Machine.execLatheTrap s
  | .gangIssue => Sys2Proof.Machine.execGangIssue s
  | .tretAfterRead => Sys2Proof.Machine.execTretAfterRead s
  | .exit => Sys2Proof.Machine.execExit s
  | .yield => Sys2Proof.Machine.execYield s
  | .nop => Sys2Proof.Machine.execNop s
  | .eret => Sys2Proof.Machine.execEret s
  | .snop => Sys2Proof.Machine.execSnop s
  | .vnop => Sys2Proof.Machine.execVnop s
  | .fnop => Sys2Proof.Machine.execFnop s
  | .mnop => Sys2Proof.Machine.execMnop s
  | .enop => Sys2Proof.Machine.execEnop s
  | .tnop => Sys2Proof.Machine.execTnop s
  | .fetchFault => Sys2Proof.Machine.execFetchFault s

end Sys2Proof.Machine
end

