-- ==== Sys2Proof/Machine/Step.lean ====
section
/-! DEFINITION. One step of the machine, and the placing of a word where the next step fetches it. -/

namespace Sys2Proof.Machine

/-- One step: the agent whose turn it is acts (assumption 1).
DEDUCED, unsafe: assumption 63. -/
def step (s : State) : Host.Outcome State Fault Refusal := State.takeStep exec s

/-- The address at which `withFetchWord` places a word: module physical, and virtual in context 0.
DESIGN CHOICE, unsafe: assumption 13. -/
def fetchPlace : Nat := 2 ^ 19

/-- A thread of context 0 in slot 0 of core 0, with g0 to g7 FULL, whose next instruction is a word; core 0 takes the next turn. It
stands for the bring-up, the load of a context and the launch that a host makes (assumption 13).
DESIGN CHOICE, unsafe: assumption 13. -/
def State.withFetchWord (s : State) (_nbits w : Nat) : State :=
  let regs : Map Reg := (List.range 8).map (fun i => (i, fullReg 0))
  let x : Slot := { st := .active, pc := BitVec.ofNat 56 fetchPlace, regs := regs }
  let c := { s.ctx 0 with st := .running, budgets := { (s.ctx 0).budgets with issue := 0xFFFF } }
  let e : TlbEntry := { pa := fetchPlace, w := true, x := true, d := true }
  let cl := s.cluster 0
  let s1 := ((s.setSlot 0 x).setCtx 0 c).setCluster 0 { cl with tlb := Map.set cl.tlb (tlbKey 0 3 fetchPlace) e }
  let s2 := s1.setCore 0 { s1.core 0 with lastIssue := none, slotIssue := [] }
  { s2.hbmWriteNat fetchPlace 4 w with ctl := { s.ctl with turns := [.spindle 0] }, mgmt := { s.mgmt with boot := .ready } }

end Sys2Proof.Machine
end

