-- ==== Sys2Proof/Safety.lean ====
section
/-! DEFINITION. What claims about the machine are stated in terms of. -/

namespace Sys2Proof

open Sys2Proof.Machine

/-- The memories of a state are in canonical form: equal contents are equal data.
DESIGN CHOICE, unsafe: assumption 3. -/
def memoriesWf (s : State) : Prop := Memory.wf s.hbm = true ∧ Memory.wf s.sp = true ∧ Memory.wf s.host = true

/-- An outcome that is a next state. -/
def goesOn (o : Host.Outcome State Fault Refusal) : Prop := ∃ t, o = .next t

/-- R115, R116, R203: the issuing slot is ready for an instruction: its fields are legal, its source registers FULL, and its
destination registers not PENDING. -/
def Ready (s : State) (i : Instr) (srcs dsts : List (BitVec 5)) : Prop :=
  wellFormed i = true ∧ (∀ r ∈ srcs, (s.cur.reg r.toNat).st = .full) ∧ (∀ r ∈ dsts, (s.cur.reg r.toNat).st ≠ .pending)

/-- Nothing outside the issuing slot has changed: no other slot, no byte of memory, no other unit. -/
def OnlySlot (s t : State) : Prop := t = { s with slots := t.slots } ∧ ∀ k, k ≠ s.key → t.slot k = s.slot k

/-- The issuing slot is at a pc, and of its fields only the pc and registers may differ. -/
def AtPc (s t : State) (pc : BitVec 56) : Prop := t.cur = { s.cur with pc := pc, regs := t.cur.regs }

/-- Registers other than d are as they were. -/
def OtherRegs (s t : State) (d : Nat) : Prop := ∀ r, r ≠ d → t.cur.reg r = s.cur.reg r

/-- The instruction has written d FULL and gone on to the next one; nothing else has changed (R116, R223). -/
def WroteReg (s t : State) (d : BitVec 5) (v : Word64) : Prop :=
  OnlySlot s t ∧ AtPc s t (s.cur.pc + 4) ∧ OtherRegs s t d.toNat ∧ (t.cur.reg d.toNat).st = .full ∧ (t.cur.reg d.toNat).v = v

/-- The instruction has set d PENDING, with a fill that brings v within n cycles, and gone on; nothing else has changed (R116, R221). -/
def LateReg (s t : State) (d : BitVec 5) (n : Nat) (v : Word64) : Prop :=
  OnlySlot s t ∧ OtherRegs s t d.toNat ∧ (t.cur.reg d.toNat).st = .pending ∧
  ∃ f : Fill, f.reg = d.toNat ∧ f.v = v ∧ f.src = .ready ∧ f.fault = none ∧ f.due = some (s.cycle + n) ∧
    t.cur = { s.cur with pc := s.cur.pc + 4, regs := t.cur.regs, fills := s.cur.fills ++ [f] }

/-- The instruction has gone on to a pc and changed nothing else. -/
def WentTo (s t : State) (pc : BitVec 56) : Prop := t = s.setCur { s.cur with pc := pc }

/-- R330: the issuing slot can take a trap in place: it is in no handler, and its context has a handler for slots (TVEC). -/
def Handles (s : State) : Prop :=
  s.cur.hnd = false ∧ s.hbmRead ((s.ctx s.cur.ctx).saveb * 4096 + 8) 8 ≠ 0 ∧ s.hbmRead ((s.ctx s.cur.ctx).saveb * 4096 + 8) 8 % 4 = 0

/-- R330, Table 20-2: the issuing slot has taken a trap in place: HND set, TCAUSE, TADDR and TPC saved, the pc at TVEC. Nothing
outside the slot, and none of its registers, has changed. -/
def TookTrap (s t : State) (info : TrapInfo) (tpc : BitVec 56) : Prop :=
  OnlySlot s t ∧ t.cur = { s.cur with
    hnd := true, st := .active, wait := .none, awaiting := [], trec := 0
    pc := BitVec.ofNat 56 (s.hbmRead ((s.ctx s.cur.ctx).saveb * 4096 + 8) 8)
    tcause := tcauseWord info.cause info.code info.status info.reason 0 false false false
    taddr := info.faddr
    tpc := tpc.zeroExtend 64 }

/-- R48, R55, R194: nothing that an ordered instruction of the issuing slot would wait for: no fill outstanding, the gathering buffer
of its core empty, no refused write to report, and no posted remote write of it or of its context unacknowledged. -/
def Quiet (s : State) : Prop :=
  s.cur.fills = [] ∧ (s.core s.coreNo).gather = [] ∧ s.cur.refused = none ∧ s.unacked s.cur.ctx = false ∧
  s.postedBy s.key = false ∧ s.cur.relOut = false

/-- Every byte of the three memories reads as before. -/
def SameMemory (s t : State) : Prop :=
  ∀ a, Memory.readByte t.hbm a = Memory.readByte s.hbm a ∧ Memory.readByte t.sp a = Memory.readByte s.sp a ∧
    Memory.readByte t.host a = Memory.readByte s.host a

end Sys2Proof
end

