-- ==== Sys2Proof/Certificates/Slice0/Obligations.lean ====
section
/-! DEFINITION. What is claimed of the machine, rule by rule. Each statement names the rules it formalises; where it rests on a choice of
the model, it names the log entry. -/

namespace Sys2Proof.Claims

open Sys2Proof Sys2Proof.Machine

/-! ### Spindle instructions that compute (chapter 15) -/

/-- The signed values of two words, and their unsigned ones, in the columns of Table 15-2. -/
abbrev Op2 := BitVec 5 → BitVec 5 → BitVec 5 → BitVec 1 → BitVec 1 → Instr
abbrev Val2 := Word64 → Word64 → Word64
abbrev Op1 := BitVec 5 → BitVec 5 → BitVec 1 → Instr
abbrev OpI := BitVec 5 → BitVec 5 → BitVec 1 → BitVec 13 → Instr

/-- 1 for a condition that holds, else 0. -/
def bit (p : Prop) [Decidable p] : Word64 := if p then 1 else 0

/-- Table 15-2: the instructions of two sources, with their results in exact arithmetic reduced modulo 2^64. -/
def integerOps : List (Op2 × Val2) := [
  (.add, fun a b => BitVec.ofNat 64 (a.toNat + b.toNat)),
  (.sub, fun a b => BitVec.ofInt 64 (a.toInt - b.toInt)),
  (.mul, fun a b => BitVec.ofNat 64 (a.toNat * b.toNat)),
  (.mulh, fun a b => BitVec.ofInt 64 (a.toInt * b.toInt / 2 ^ 64)),
  (.mulhz, fun a b => BitVec.ofNat 64 (a.toNat * b.toNat / 2 ^ 64)),
  (.and, fun a b => a &&& b),
  (.or, fun a b => a ||| b),
  (.xor, fun a b => a ^^^ b),
  (.shl, fun a b => BitVec.ofNat 64 (a.toNat * 2 ^ (b.toNat % 64))),
  (.shr, fun a b => BitVec.ofNat 64 (a.toNat / 2 ^ (b.toNat % 64))),
  (.sra, fun a b => BitVec.ofInt 64 (a.toInt / 2 ^ (b.toNat % 64))),
  (.rotl, fun a b => a <<< (b.toNat % 64) ||| a >>> (64 - b.toNat % 64)),
  (.min, fun a b => if a.toInt < b.toInt then a else b),
  (.max, fun a b => if a.toInt < b.toInt then b else a),
  (.minz, fun a b => if a.toNat < b.toNat then a else b),
  (.maxz, fun a b => if a.toNat < b.toNat then b else a),
  (.cmpeq, fun a b => bit (a = b)),
  (.cmplt, fun a b => bit (a.toInt < b.toInt)),
  (.cmpltz, fun a b => bit (a.toNat < b.toNat))]

/-- R235, R236, R234: the other instructions of two sources and one result; `fcmp` by its four codes. The FP64 operations are those
of the format library (R21), with every value exact before its one rounding. -/
def otherOps2 : List (Op2 × Val2) := [
  (.fadd, fun a b => BitVec.ofNat 64 (faddCode fp64 a.toNat b.toNat)),
  (.fsub, fun a b => BitVec.ofNat 64 (fsubCode fp64 a.toNat b.toNat)),
  (.fmul, fun a b => BitVec.ofNat 64 (fmulCode fp64 a.toNat b.toNat)),
  (.fmin, fun a b => BitVec.ofNat 64 (fminCode fp64 a.toNat b.toNat)),
  (.fmax, fun a b => BitVec.ofNat 64 (fmaxCode fp64 a.toNat b.toNat)),
  (.fcmp, fun a b => BitVec.ofNat 64
    (if isNanCode fp64 a.toNat ∨ isNanCode fp64 b.toNat then 8
     else if valueKey fp64 a.toNat < valueKey fp64 b.toNat then 1
     else if valueKey fp64 a.toNat = valueKey fp64 b.toNat then 2 else 4)),
  (.padd, fun a b => a.extractLsb' 56 8 ++ (a.extractLsb' 0 56 + b.extractLsb' 0 56)),
  (.ptag, fun a b => b.extractLsb' 0 8 ++ a.extractLsb' 0 56)]

/-- Tables 15-4 and R226: the immediate forms. -/
def immediateOps : List (OpI × (Word64 → BitVec 13 → Word64)) := [
  (.addi, fun a m => BitVec.ofInt 64 (a.toInt + m.toInt)),
  (.andi, fun a m => a &&& BitVec.ofInt 64 m.toInt),
  (.ori, fun a m => a ||| BitVec.ofInt 64 m.toInt),
  (.xori, fun a m => a ^^^ BitVec.ofInt 64 m.toInt),
  (.shli, fun a m => BitVec.ofNat 64 (a.toNat * 2 ^ m.toNat)),
  (.shri, fun a m => BitVec.ofNat 64 (a.toNat / 2 ^ m.toNat)),
  (.srai, fun a m => BitVec.ofInt 64 (a.toInt / 2 ^ m.toNat)),
  (.cmpeqi, fun a m => bit (a.toInt = m.toInt)),
  (.cmplti, fun a m => bit (a.toInt < m.toInt)),
  (.movhi, fun a m => BitVec.ofNat 64 (a.toNat * 2 ^ 13 + m.toNat))]

/-- The bits of a word from the top (clz), from the bottom (ctz): n is the number of zeros met before the first one. -/
def leadingZeros (a : Word64) (n : Nat) : Prop := n ≤ 64 ∧ (∀ i, i < n → a.getLsbD (63 - i) = false) ∧ (n < 64 → a.getLsbD (63 - n) = true)
def trailingZeros (a : Word64) (n : Nat) : Prop := n ≤ 64 ∧ (∀ i, i < n → a.getLsbD i = false) ∧ (n < 64 → a.getLsbD n = true)
/-- The number of one bits. -/
def onesOf (a : Word64) : Nat := ((List.range 64).filter (fun i => a.getLsbD i)).length


/-! ### Rounding (R19, R21) -/

/-- The magnitude of code c of a format (Table 2-2), as if its exponents went on without end. -/
def magOf (f : FFmt) (c : Nat) : ℚ :=
  if c < 2 ^ f.m then (c : ℚ) * 2 ^ (1 - (f.bias : ℤ) - f.m)
  else ((2 ^ f.m + c % 2 ^ f.m : Nat) : ℚ) * 2 ^ (((c / 2 ^ f.m : Nat) : ℤ) - f.bias - f.m)

/-- An encoding of a format that is a finite number, and its value. -/
def FiniteCode (f : FFmt) (c : Nat) : Prop := c < 2 ^ f.width ∧ c % 2 ^ (f.e + f.m) < f.overCode
def valueOf (f : FFmt) (c : Nat) : ℚ := (if c.testBit (f.e + f.m) then -1 else 1) * magOf f (c % 2 ^ (f.e + f.m))

/-- R21: r is x rounded once: the code of the nearest magnitude, the even one of two as near, with the sign of x (`neg` for a zero); above the
maximum finite value it is infinite, or in a format that saturates the maximum. -/
def RoundsTo (f : FFmt) (x : ℚ) (neg : Bool) (r : Nat) : Prop :=
  ∃ c, (∀ d, abs (magOf f c - abs x) < abs (magOf f d - abs x) ∨
      (abs (magOf f c - abs x) = abs (magOf f d - abs x) ∧ (d = c ∨ c % 2 = 0))) ∧
    r = (if x < 0 ∨ (x = 0 ∧ neg = true) then 2 ^ (f.e + f.m) else 0) +
      (if c < f.overCode then c else if f.saturates then f.overCode - 1 else f.overCode)

/-- R21: n is x rounded to a whole number, ties to even. -/
def RoundsToInt (x : ℚ) (n : Int) : Prop := ∀ k : Int,
  abs ((n : ℚ) - x) < abs ((k : ℚ) - x) ∨ (abs ((n : ℚ) - x) = abs ((k : ℚ) - x) ∧ (k = n ∨ n % 2 = 0))

/-- Table 2-2. -/
def formats : List FFmt := [fp64, fp32, bf16, fp16, e4m3, e5m2]

/-- R229: a word of the constant window has reached d, or, where the read may lose its bank to a read of a sealed tile, is on its way to it;
nothing else of the slot or outside it has changed but the model's count of free values. -/
def WindowTook (s t : State) (d : BitVec 5) (v : Word64) : Prop :=
  (s.tilesRead (clusterOf s.coreNo) = false → WroteReg s t d v) ∧
  t = { s with ctl := t.ctl, slots := t.slots } ∧ (∀ k, k ≠ s.key → t.slot k = s.slot k) ∧ OtherRegs s t d.toNat ∧
  (AtPc s t (s.cur.pc + 4) ∧ (t.cur.reg d.toNat).st = .full ∧ (t.cur.reg d.toNat).v = v ∨
   (t.cur.reg d.toNat).st = .pending ∧ ∃ f : Fill, f.reg = d.toNat ∧ f.v = v ∧ f.src = .ready ∧ f.fault = none ∧
     t.cur = { s.cur with pc := s.cur.pc + 4, regs := t.cur.regs, fills := s.cur.fills ++ [f] })
/-! ### System registers (Table 16-6) -/

/-- Table 16-6: what `getk` reads, for each number that it assigns. -/
def systemRegisters : List (Nat × (State → Nat)) := [
  (0, fun s => s.cur.tid),
  (1, fun s => (if s.cur.tcls then 128 else 0) + (if s.cur.hnd then 64 else 0) + s.cur.ctx),
  (2, fun s => s.cur.hyp),
  (3, fun s => s.key % 16 * 4096 + s.coreNo),
  (4, fun s => (s.ctx s.cur.ctx).ovec.toNat),
  (5, fun s => (s.ctx s.cur.ctx).trapc),
  (6, fun s => (s.ctx s.cur.ctx).pfxb.toNat),
  (7, fun s => s.cur.fltsel),
  (8, fun s => (Map.get (s.core s.coreNo).flt s.cur.fltsel {}).v.toNat),
  (9, fun s => s.cycle % 2 ^ 64),
  (10, fun s => (s.ctx s.cur.ctx).lref),
  (11, fun s => s.cur.rfref),
  (12, fun s => (if (s.ctx s.cur.ctx).st = .checkpointed then 2 else 0) + (if s.cur.ckok then 1 else 0)),
  (13, fun s => Map.get (s.cluster (s.coreNo / 16)).scalest s.cur.ctx 0),
  (14, fun s => if s.cur.barst then 1 else 0),
  (16, fun s => ((s.ctx s.cur.ctx).lflag.extractLsb' 0 64).toNat),
  (17, fun s => ((s.ctx s.cur.ctx).lflag.extractLsb' 64 64).toNat),
  (18, fun s => ((s.ctx s.cur.ctx).lflag.extractLsb' 128 64).toNat),
  (19, fun s => ((s.ctx s.cur.ctx).lflag.extractLsb' 192 64).toNat),
  (20, fun s => (s.lathe (4 * (s.coreNo / 16))).hqStall),
  (21, fun s => (s.lathe (4 * (s.coreNo / 16) + 1)).hqStall),
  (22, fun s => (s.lathe (4 * (s.coreNo / 16) + 2)).hqStall),
  (23, fun s => (s.lathe (4 * (s.coreNo / 16) + 3)).hqStall),
  (24, fun s => (s.core s.coreNo).fifo.stall),
  (25, fun s => (s.core s.coreNo).fifo.entries.length),
  (32, fun s => s.cur.tcause.toNat),
  (33, fun s => s.cur.tpc.toNat),
  (34, fun s => s.cur.taddr.toNat),
  (35, fun s => s.cur.trec.toNat)]

/-- The registers of access RW, with the value that a write of v leaves. -/
def writableRegisters : List (Nat × (Word64 → Nat)) :=
  [(4, fun v => v.toNat), (5, fun v => v.toNat % 4096), (6, fun v => v.toNat), (7, fun v => v.toNat % 32), (8, fun v => v.toNat),
   (33, fun v => v.toNat)]

/-- The registers of access W1C. -/
def clearableRegisters : List Nat := [10, 11, 13, 16, 17, 18, 19, 20, 21, 22, 23, 24]

/-- Table 16-6: the registers of a whole context, writable only under hypothesis 0 (R157). -/
def contextRegisters : List Nat := [4, 5, 6, 16, 17, 18, 19]

/-- The slot has gone on to the next word, its registers as they were, and no byte of memory has changed. -/
def WentOn (s t : State) : Prop :=
  t.cur.pc = s.cur.pc + 4 ∧ (∀ r, t.cur.reg r = s.cur.reg r) ∧ (∀ k, k ≠ s.key → t.slot k = s.slot k) ∧ SameMemory s t

/-! ### Memory (chapter 16) -/

abbrev OpM := BitVec 5 → BitVec 5 → BitVec 1 → BitVec 3 → BitVec 2 → BitVec 8 → Instr

/-- Table 16-1: the loads: width in bytes, and the register value of the number loaded. -/
def loadOps : List (OpM × Nat × (Nat → Word64)) := [
  (.ldB, 1, fun v => (BitVec.ofNat 8 v).signExtend 64),
  (.ldH, 2, fun v => (BitVec.ofNat 16 v).signExtend 64),
  (.ldW, 4, fun v => (BitVec.ofNat 32 v).signExtend 64),
  (.ldD, 8, fun v => BitVec.ofNat 64 v),
  (.ldzB, 1, fun v => BitVec.ofNat 64 v),
  (.ldzH, 2, fun v => BitVec.ofNat 64 v),
  (.ldzW, 4, fun v => BitVec.ofNat 64 v)]

/-- The stores, with their widths. -/
def storeOps : List (OpM × Nat) := [(.stB, 1), (.stH, 2), (.stW, 4), (.stD, 8)]

/-- Table 16-3: the atomics on 8 bytes: what they store, from the old value and the operand. -/
def atomicOps : List (OpM × (Word64 → Word64 → Word64)) := [
  (.amoSwap, fun _ v => v),
  (.amoAdd, fun o v => o + v),
  (.amoAnd, fun o v => o &&& v),
  (.amoOr, fun o v => o ||| v),
  (.amoXor, fun o v => o ^^^ v),
  (.amoMin, fun o v => if o.toInt < v.toInt then o else v),
  (.amoMax, fun o v => if o.toInt < v.toInt then v else o),
  (.amoMinz, fun o v => if o.toNat < v.toNat then o else v),
  (.amoMaxz, fun o v => if o.toNat < v.toNat then v else o),
  (.amoFadd, fun o v => BitVec.ofNat 64 (faddCode fp64 o.toNat v.toNat))]

/-- R242: the effective address of a base register, an offset and an element size. -/
def ea (s : State) (base : BitVec 5) (off : BitVec 8) (n : Nat) : Nat := effAddr (s.gr base) off n

/-- What TADDR reports of an address of the issuing slot (R328). -/
def faddr (s : State) (va : Nat) : Word64 := s.faddrOf s.cur.ctx s.cur.tid va

/-- A load has gone on with d PENDING and a fill that brings v. It has changed only its slot, its core's cache, and the model's count of
free values: no byte of memory, no other slot, no other register. -/
def Loaded (s t : State) (d : BitVec 5) (v : Word64) : Prop :=
  t = { s with ctl := t.ctl, cores := t.cores, slots := t.slots } ∧ (∀ k, k ≠ s.key → t.slot k = s.slot k) ∧
  OtherRegs s t d.toNat ∧ (t.cur.reg d.toNat).st = .pending ∧
  ∃ f : Fill, f.reg = d.toNat ∧ f.v = v ∧ f.src = .ready ∧ f.fault = none ∧
    t.cur = { s.cur with pc := s.cur.pc + 4, regs := t.cur.regs, fills := s.cur.fills ++ [f] }

/-- Bytes of a memory written at an address, and every other byte as it was. -/
def Stored (m m' : Memory) (a : Nat) (bs : List Byte) : Prop :=
  Memory.readBytes m' a bs.length = bs ∧ ∀ x, (x < a ∨ a + bs.length ≤ x) → Memory.readByte m' x = Memory.readByte m x

/-- R250: a memory after `cas` of a register pair d, d + 1 at an address whose word was `old`. -/
def CasStored (s : State) (d : BitVec 5) (old : Word64) (m m' : Memory) (a : Nat) : Prop :=
  (old = s.gr d → Stored m m' a (leBytes 8 (s.gr (d + 1#5)).toNat)) ∧ (old ≠ s.gr d → m' = m)

/-- R149: the fill that the batch add of a batch word `old` brings to d, and the memory after it: an index claimed while fill is below size, the
word closed where it is full. -/
def BatchAdded (t : State) (d : BitVec 5) (old : Word64) (m m' : Memory) (a : Nat) : Prop :=
  (old.getLsbD 63 = false → (old.extractLsb' 0 16).toNat < (old.extractLsb' 16 16).toNat →
    (∃ f ∈ t.cur.fills, f.reg = d.toNat ∧ f.src = .ready ∧ f.v = old) ∧
    Stored m m' a (leBytes 8 (old.toNat + 1 +
      (if (old.extractLsb' 0 16).toNat + 1 = (old.extractLsb' 16 16).toNat then 2 ^ 63 else 0)))) ∧
  (old.getLsbD 63 = true ∨ (old.extractLsb' 16 16).toNat ≤ (old.extractLsb' 0 16).toNat →
    (∃ f ∈ t.cur.fills, f.reg = d.toNat ∧ f.src = .ready ∧ f.v = old ||| BitVec.intMin 64) ∧
    Stored m m' a (leBytes 8 (old ||| BitVec.intMin 64).toNat))

/-- A memory instruction of the issuing slot: what it is, its width, its access, the registers that it reads beside its base, and whether its
base is a pointer whose format counts. -/
structure MemForm where
  i : Instr
  n : Nat
  acc : Acc3
  srcs : List (BitVec 5)
  typed : Bool := false

/-- The memory instructions of chapter 16 that name one address by a base and an offset. -/
def memForms (s : State) (d base : BitVec 5) (ta : BitVec 1) (scope : BitVec 3) (order : BitVec 2) (off : BitVec 8) : List MemForm :=
  loadOps.map (fun p => ⟨p.1 d base ta scope order off, p.2.1, .read, [], false⟩) ++
  storeOps.map (fun p => ⟨p.1 d base ta scope order off, p.2, .write, [d], false⟩) ++
  atomicOps.map (fun p => ⟨p.1 d base ta scope order off, 8, .write, [d], false⟩) ++
  [⟨.amoAddBatch d base ta scope order off, 8, .write, [d], false⟩, ⟨.cas d base ta scope order off, 8, .write, [d, d + 1#5], false⟩,
   ⟨.notify d base ta scope off, 8, .write, [d], false⟩, ⟨.nwait d base ta scope off, 8, .read, [d], false⟩,
   ⟨.ldt d base ta scope order off, elemSize ((s.gr base).toNat / 2 ^ 59), .read, [], true⟩,
   ⟨.stt d base ta scope order off, elemSize ((s.gr base).toNat / 2 ^ 59), .write, [d], true⟩]

/-- Table 16-3: the atomics of no link sub-op. -/
def noSubOps : List OpM := [.amoMin, .amoMax, .amoMinz, .amoMaxz]

/-- No core's gathering buffer holds an entry. -/
def BuffersEmpty (s : State) : Prop := ∀ n, (s.core n).gather = []

/-- R243 items 6 and 8: the scratchpad bytes that a generic store may write: outside the windows and tables below 0x5000, and in no
tile. -/
def Writable (s : State) (a n : Nat) : Prop := 0x5000 ≤ a % 2 ^ 22 ∧ s.tileOwned a n = false


/-- Of the tiles, only the one at a key may have changed. -/
def OnlyTile (s t : State) (k : Nat) : Prop := ∀ j, j ≠ k → t.tile j = s.tile j
/-! ### Threads, messages, tiles, barriers, hypotheses -/

/-- The registers that a message, a new thread or a task carries: g0 to g7 (R96). -/
def g0to7 (s : State) : List Reg := [s.cur.reg 0, s.cur.reg 1, s.cur.reg 2, s.cur.reg 3, s.cur.reg 4, s.cur.reg 5, s.cur.reg 6, s.cur.reg 7]

/-- g0 to gn of the issuing slot are FULL. -/
def lowFull (s : State) (n : Nat) : Prop := ∀ r, r < n → (s.cur.reg r).st = .full

/-- The issuing slot has written d FULL with v and gone on; its other registers, the other slots and all bytes of memory are as they were. -/
def WroteAndMore (s t : State) (d : BitVec 5) (v : Word64) : Prop :=
  t.cur.pc = s.cur.pc + 4 ∧ OtherRegs s t d.toNat ∧ (t.cur.reg d.toNat).st = .full ∧ (t.cur.reg d.toNat).v = v ∧ SameMemory s t

/-- Key of the tile that a local handle names, and whether the handle is current for the issuing slot (R128, R129). -/
def ownTile (s : State) (a : BitVec 5) (k : Nat) : Prop := s.tileFor (s.coreNo / 16) s.cur.ctx (s.gr a).toNat = some k

/-- The position word of a tile store: row, byte offset in the row, log2 of the bytes stored (Table 16-4). -/
def posRow (w : Word64) : Nat := (w.extractLsb' 0 7).toNat
def posOff (w : Word64) : Nat := (w.extractLsb' 8 15).toNat
def posBytes (w : Word64) : Nat := 2 ^ (w.extractLsb' 23 3).toNat

/-- The scratchpad address of a byte of a tile's row. -/
def rowAddr (s : State) (k row off : Nat) : Nat := k / 1024 * 2 ^ 22 + (s.tile k).shape.base + row * (s.tile k).shape.rstride + off

/-- A local tile write that the port accepts (Table 9-2): the tile open, no seal of this cycle before
it, the row not yet final, the bytes within the row. -/
def PortTakes (s : State) (k : Nat) (row off n : Nat) : Prop :=
  (s.tile k).st = .open_ ∧ (s.tile k).sealsNow s.cycle = false ∧ row < (s.tile k).shape.rows ∧ off + n ≤ (s.tile k).shape.rowLen ∧
  (s.tile k).valid.getLsbD row = false

/-- A local tile write that the port refuses, with its code (Table 9-2): the first that applies of the row or byte range outside the shape,
the tile sealed, the row already valid. -/
def PortRefuses (s : State) (k row off n code : Nat) : Prop :=
  code = 2 ∧ ((s.tile k).shape.rows ≤ row ∨ (s.tile k).shape.rowLen < off + n) ∨
  row < (s.tile k).shape.rows ∧ off + n ≤ (s.tile k).shape.rowLen ∧
    (code = 3 ∧ ((s.tile k).st ≠ .open_ ∨ (s.tile k).sealsNow s.cycle = true) ∨
     code = 4 ∧ (s.tile k).st = .open_ ∧ (s.tile k).sealsNow s.cycle = false ∧ (s.tile k).valid.getLsbD row = true)

/-- Table 9-4: the status word of a sealed tile, with the state code given, no chime cycles remaining, and rfsd where a seal found it sealed. -/
def sealedWord (x : Tile) (st : Nat) (rfsd : Bool) : Nat :=
  st * 2 ^ 61 + (if x.chime then 2 ^ 60 else 0) + (if rfsd then 2 ^ 59 else 0) + x.vcnt * 2 ^ 48 + x.lathe * 2 ^ 46 + x.ctx * 2 ^ 40
    + x.gen * 2 ^ 34 + x.target * 2 ^ 26

/-- A post to a handle queue can enter at once (R95): the Lathe is bound to the thread's launch, and its queue has room with none waiting. -/
def QueueOpen (s : State) (l : Nat) : Prop :=
  s.cur.launch.isSome = true ∧ (s.lathe l).bound = s.cur.launch ∧ (s.lathe l).hq.length < 64 ∧ (s.lathe l).hqWait = []

/-- A fill of the issuing slot brings v to d, and the slot has gone on. -/
def FillsReg (s t : State) (d : BitVec 5) (v : Word64) : Prop :=
  t.cur.pc = s.cur.pc + 4 ∧ OtherRegs s t d.toNat ∧ (t.cur.reg d.toNat).st = .pending ∧
  ∃ f ∈ t.cur.fills, f.reg = d.toNat ∧ f.v = v ∧ f.src = .ready

/-- A va lies in the scratchpad window with n bytes in it, and its scratchpad address is a; no view is open and no sector poisoned. -/
def PlainScratch (s : State) (va n a : Nat) : Prop :=
  s.ctl.at_.slot < 16 ∧ ∃ off, windowOf va = .scratch off ∧ off + n ≤ 2 ^ 22 ∧ a = s.coreNo / 16 * 2 ^ 22 + off ∧ s.views = [] ∧ s.spPoison = []

/-- Token i of a block at a scratchpad address (R184). -/
def tokenAt (s : State) (a i : Nat) : Word64 := BitVec.ofNat 64 (leNat (Memory.readBytes s.sp (a + 4 * i) 4))


/-- The prefix table of the issuing context lies in module HBM at pa: each of its 64 entries is readable there, and none is poisoned (R185). -/
def PrefixTableAt (s : State) (pa : Nat) : Prop :=
  (s.ctx s.cur.ctx).pfxb.toNat % 2 ^ 56 ≠ 0 ∧ ∀ i, i < 64 →
    s.resolve s.key ((s.ctx s.cur.ctx).pfxb.toNat % 2 ^ 56 + 32 * i) .read = .at_ (.hbm (pa + 32 * i)) ∧ s.poisoned (pa + 32 * i) 32 = false

/-- Its entry i. -/
def prefixEntry (s : State) (pa i : Nat) : Nat := leNat (Memory.readBytes s.hbm (pa + 32 * i) 32)

/-- Entry i is in use, well formed, of block 0, and of the hash of a block of tokens (R184, Table 12-10). -/
def EntryHashes (s : State) (pa i toks : Nat) : Prop :=
  pfxLive (prefixEntry s pa i) = true ∧ bitsOf (pfxWord (prefixEntry s pa i) 2) 31 0 = 0 ∧
  pfxWord (prefixEntry s pa i) 0 = ((List.range 16).foldl (fun h j => h.rotateLeft 13 + BitVec.ofNat 64 (toks / 2 ^ (32 * j) % 2 ^ 32)) 0#64).toNat
/-! ### Lathes (chapters 17 and 18) -/

/-- The Lathe that acts. -/
abbrev lno (s : State) : Nat := s.ctl.at_.lathe
/-- Its registers as words. -/
abbrev lq (s : State) (n : BitVec 4) : Word32 := Map.get (s.lathe (lno s)).q n.toNat 0
abbrev lh (s : State) (n : BitVec 3) : Word32 := Map.get (s.lathe (lno s)).h n.toNat 0
abbrev lv (s : State) (n : BitVec 5) : BitVec 2048 := Map.get (s.lathe (lno s)).v n.toNat 0
abbrev la (s : State) (n : BitVec 3) : Acc := Map.get (s.lathe (lno s)).a n.toNat emptyAcc

/-- Nothing that the acting Lathe has issued is still in flight, and no release awaits it (R278, R285, R302). -/
def LatheIdle (s : State) : Prop :=
  (s.lathe (lno s)).pending = [] ∧ (s.lathe (lno s)).mats = [] ∧ (s.lathe (lno s)).reads = [] ∧ (s.lathe (lno s)).lastMat = none ∧
  (s.lathe (lno s)).relPending = false

/-- A slot operation that R278 lets issue, with no field value that its table calls illegal. -/
def LatheReady (s : State) (i : Instr) : Prop := LatheIdle s ∧ slotValueLegal i = true

/-- Nothing outside the acting Lathe has changed. -/
def OnlyLathe (s t : State) : Prop := t = { s with lathes := t.lathes } ∧ ∀ l, l ≠ lno s → t.lathe l = s.lathe l

/-- R276: a Lathe after the issue of a bundle of one operation: the next bundle at a pc, in the next cycle at the earliest. -/
def issued (s : State) (x : Lathe) (pc : BitVec 56) : Lathe :=
  { x with pc := pc, nextIssue := s.cycle + 1, held := none, atGang := false, eDone := false, stalledPost := false, fetched := [], gone := [] }

/-- The bundle has issued and changed nothing but the sequencer. -/
def LatheWent (s t : State) : Prop := OnlyLathe s t ∧ t.lathe (lno s) = issued s (s.lathe (lno s)) ((s.lathe (lno s)).pc + 8)

/-- The bundle has issued, and a register holds a new value, its write landing after a latency (R278); nothing else has changed. -/
def WroteQ (s t : State) (d : BitVec 4) (v : Word32) (lat : Nat) : Prop :=
  OnlyLathe s t ∧ t.lathe (lno s) = { issued s (s.lathe (lno s)) ((s.lathe (lno s)).pc + 8) with
    q := (t.lathe (lno s)).q, pending := [(.q d.toNat, s.cycle + lat)] } ∧
  ∀ n, Map.get (t.lathe (lno s)).q n 0 = if n = d.toNat then v else Map.get (s.lathe (lno s)).q n 0
def WroteV (s t : State) (d : BitVec 5) (v : BitVec 2048) (lat : Nat) : Prop :=
  OnlyLathe s t ∧ t.lathe (lno s) = { issued s (s.lathe (lno s)) ((s.lathe (lno s)).pc + 8) with
    v := (t.lathe (lno s)).v, pending := [(.v d.toNat, s.cycle + lat)] } ∧
  ∀ n, Map.get (t.lathe (lno s)).v n 0 = if n = d.toNat then v else Map.get (s.lathe (lno s)).v n 0
def WroteA (s t : State) (d : BitVec 3) (v : Acc) (lat : Nat) : Prop :=
  OnlyLathe s t ∧ t.lathe (lno s) = { issued s (s.lathe (lno s)) ((s.lathe (lno s)).pc + 8) with
    a := (t.lathe (lno s)).a, pending := [(.a d.toNat, s.cycle + lat)] } ∧
  ∀ n, Map.get (t.lathe (lno s)).a n emptyAcc = if n = d.toNat then v else Map.get (s.lathe (lno s)).a n emptyAcc

/-- R279, R332: the bundle has taken no effect; the Lathe is stopped by a trap in a slot, with its bundle as the one to resume at. -/
def LatheTrapped (s t : State) (info : TrapInfo) (slotNo : Nat) : Prop :=
  OnlyLathe s t ∧ t.lathe (lno s) = { s.lathe (lno s) with
    walk := none, atGang := false, held := none
    trap := some { rec_ := { cause := tcauseWord info.cause info.code info.status info.reason slotNo true false false
                             pc := (s.lathe (lno s)).pc.toNat, faddr := info.faddr, resume := (s.lathe (lno s)).pc.toNat
                             ctx := (s.lathe (lno s)).ctx, lathe := true, src := latheWord (lno s), cycle := s.cycle } } }

/-- The acting Lathe is not stopped already, and no post of it waits at a handle queue, to be withdrawn when it stops (R279). -/
def CanTrap (s : State) : Prop := (s.lathe (lno s)).trap = none ∧ ∀ d, .lathe (lno s) ∉ (s.lathe d).hqWait

/-- The operation does not hold its bundle back in this cycle, before the monitor looks at it (R276, R278): its queue has an entry, or room
for its post, or its FIFO room for its request. -/
def Unstalled (s : State) (i : Instr) : Prop :=
  match i with
  | .qwait _ _ => (s.lathe (lno s)).hq ≠ []
  | .qpostLathe l _ => (s.lathe (lno s / 4 * 4 + l.toNat)).hq.length < 64 ∧ (s.lathe (lno s / 4 * 4 + l.toNat)).hqWait = []
  | .toutC _ _ _ => (s.lathe (lno s)).fifo.entries.length < 16
  | _ => True

/-- The second operand of a scalar operation (R282). -/
def scalarSrc (s : State) (i : BitVec 1) (imm : BitVec 17) : Word32 :=
  if i = 0#1 then lq s (imm.extractLsb' 13 4) else imm.signExtend 32

/-- R282: the scalar operations. -/
def scalarOps : List ((BitVec 4 → BitVec 4 → BitVec 1 → BitVec 17 → Instr) × (Word32 → Word32 → Word32)) := [
  (.sadd, fun a b => a + b), (.ssub, fun a b => a - b), (.smul, fun a b => a * b), (.sand, fun a b => a &&& b),
  (.sor, fun a b => a ||| b), (.sxor, fun a b => a ^^^ b), (.sshl, fun a b => a <<< (b.toNat % 32)), (.sshr, fun a b => a >>> (b.toNat % 32))]

/-- R283, R294: the conditions eq, ne, lt, ge, ltu, geu of integer lanes. -/
def condHolds {w : Nat} (cc : BitVec 3) (signed : Bool) (a b : BitVec w) : Bool :=
  let lt := if signed then decide (a.toInt < b.toInt) else decide (a.toNat < b.toNat)
  if cc = 0 then a == b else if cc = 1 then a != b else if cc = 2 then lt else if cc = 3 then !lt
  else if cc = 4 then decide (a.toNat < b.toNat) else decide (b.toNat ≤ a.toNat)

/-- R294: eq, ne, lt and ge of floating lanes, by their codes: a NaN makes ne true and the others false; −0 equals +0. -/
def floatHolds (cc : BitVec 3) (f : FFmt) (a b : Nat) : Bool :=
  let nan := isNanCode f a || isNanCode f b
  if cc = 0 then !nan && valueKey f a == valueKey f b else if cc = 1 then nan || valueKey f a != valueKey f b
  else if cc = 2 then !nan && decide (valueKey f a < valueKey f b) else !nan && decide (valueKey f b ≤ valueKey f a)

/-- Lane j of w bits. -/
abbrev lane (v : BitVec 2048) (w j : Nat) : BitVec w := v.extractLsb' (w * j) w
/-- A vector is a function, lane by lane, of others. -/
def Lanes (w : Nat) (v : BitVec 2048) (f : Nat → BitVec w) : Prop := ∀ j, w * j < 2048 → lane v w j = f j

/-- Table 14-8: the integer lane types: width, signedness; and the floating ones. -/
def intTypes : List (BitVec 3 × Nat × Bool) := [(0, 32, true), (1, 32, false), (3, 16, true), (4, 16, false)]
def floatTypes : List (BitVec 3 × Nat × FFmt) := [(2, 32, fp32), (5, 16, bf16), (6, 16, fp16)]

abbrev VOp := BitVec 5 → BitVec 5 → BitVec 5 → BitVec 3 → Instr

/-- R291, R292, R294: the lane operations of integer types: of va's, vb's and the old vd's lane; and their latency. -/
def intLaneOps : List (VOp × ((w : Nat) → Bool → BitVec w → BitVec w → BitVec w → BitVec w) × Nat) := [
  (.vadd, fun _ _ a b _ => a + b, 3), (.vsub, fun _ _ a b _ => a - b, 3), (.vmul, fun _ _ a b _ => a * b, 4),
  (.vfma, fun _ _ a b d => a * b + d, 4),
  (.vmax, fun _ sg a b _ => if (if sg then decide (a.toInt < b.toInt) else decide (a.toNat < b.toNat)) then b else a, 3),
  (.vmin, fun _ sg a b _ => if (if sg then decide (b.toInt < a.toInt) else decide (b.toNat < a.toNat)) then b else a, 3),
  (.vand, fun _ _ a b _ => a &&& b, 3), (.vor, fun _ _ a b _ => a ||| b, 3), (.vxor, fun _ _ a b _ => a ^^^ b, 3),
  (.vshl, fun w _ a b _ => a <<< (b.toNat % w), 3),
  (.vshr, fun w sg a b _ => if sg then a.sshiftRight (b.toNat % w) else a >>> (b.toNat % w), 3),
  (.vsel, fun _ _ a b d => if d = 0 then b else a, 3)]

/-- The same of floating types, by codes. -/
def floatLaneOps : List (VOp × (FFmt → Nat → Nat → Nat → Nat) × Nat) := [
  (.vadd, fun f a b _ => faddCode f a b, 3), (.vsub, fun f a b _ => fsubCode f a b, 3), (.vmul, fun f a b _ => fmulCode f a b, 4),
  (.vfma, fun f a b d => fmaCode f a b d, 4), (.vmax, fun f a b _ => fmaxCode f a b, 3), (.vmin, fun f a b _ => fminCode f a b, 3),
  (.vsel, fun _ a b d => if d = 0 then b else a, 3)]

/-- R298: the special functions of FP32 lanes. -/
def laneFuns : List ((BitVec 5 → BitVec 5 → Instr) × (Nat → Nat)) := [
  (.fexp2, exp2t), (.flog2, flog2), (.frcp, frcp), (.frsqrt, frsqrt), (.fsin, fsin), (.fcos, fcos)]

/-- Row i of an accumulator of FP32 form holds a softmax state (R38). -/
def RowHolds (x : Acc) (i : Nat) (r : RowState) : Prop :=
  Map.get x.m i (BitVec.ofNat 32 ninf32) = BitVec.ofNat 32 r.m ∧ Map.get x.l i 0 = BitVec.ofNat 32 r.l ∧ x.nan.getLsbD i = r.nan ∧
  Lanes 32 (Map.get x.rows i 0) (fun j => BitVec.ofNat 32 (r.o.getD j 0))

/-- The element of a tile that a matrix operation reads: +0 beyond its rows, its columns, and where the row is not valid (R299). -/
def tileElem (s : State) (k row col : Nat) : Nat :=
  if row < 128 ∧ row < (s.tile k).shape.rows ∧ (s.tile k).valid.getLsbD row = true ∧ col < (s.tile k).shape.cols then
    leNat (Memory.readBytes s.sp (rowAddr s k row (col * (s.tile k).shape.estr * elemSize (s.tile k).shape.fmt)) (elemSize (s.tile k).shape.fmt))
  else 0

/-- The tile that a handle register names for the acting Lathe (R128, R129). -/
def latheTileIs (s : State) (h : BitVec 3) (k : Nat) : Prop := s.tileFor (lno s / 4) (s.lathe (lno s)).ctx (lh s h).toNat = some k

/-- The two views of the scratchpad agree (R68), and none of its sectors is poisoned. -/
def PlainTiles (s : State) : Prop := s.views = [] ∧ s.spPoison = []

/-- A post to a handle queue of the issuing Lathe's launch can enter at once (R95, R286). -/
def PostOpen (s : State) (d : Nat) : Prop :=
  (s.lathe (lno s)).bound.isSome = true ∧ (s.lathe d).bound = (s.lathe (lno s)).bound ∧ (s.lathe d).hq.length < 64 ∧ (s.lathe d).hqWait = []

/-- The acting Lathe has gone on to the next bundle with its registers as they were, and memory is as it was. -/
def LatheOn (s t : State) : Prop :=
  (t.lathe (lno s)).pc = (s.lathe (lno s)).pc + 8 ∧ (t.lathe (lno s)).trap = (s.lathe (lno s)).trap ∧
  (t.lathe (lno s)).q = (s.lathe (lno s)).q ∧ (t.lathe (lno s)).h = (s.lathe (lno s)).h ∧
  (t.lathe (lno s)).v = (s.lathe (lno s)).v ∧ (t.lathe (lno s)).a = (s.lathe (lno s)).a ∧ t.slots = s.slots ∧ SameMemory s t

/-- The scratchpad address of element j of row i of a tile. -/
def elemAddr (s : State) (k i j : Nat) : Nat := rowAddr s k i (j * (s.tile k).shape.estr * elemSize (s.tile k).shape.fmt)


/-- Lathe n + i is of the gang that Lathe n leads: bound to its launch, its context running, with nothing in flight, nothing
that delays it and no trap. -/
def GangLathe (s : State) (n i : Nat) : Prop :=
  (s.lathe (n + i)).bound = (s.lathe n).bound ∧ (s.lathe (n + i)).pending = [] ∧ (s.lathe (n + i)).mats = [] ∧
  (s.lathe (n + i)).reads = [] ∧ (s.lathe (n + i)).relPending = false ∧ (s.lathe (n + i)).late = [] ∧ s.ctxRuns (s.lathe (n + i)).ctx = true ∧
    (s.lathe (n + i)).walk = none ∧
  (s.lathe (n + i)).trap = none ∧ (s.lathe (n + i)).nextIssue ≤ s.cycle

/-- It waits at a gang bundle that holds an `xchg` alone. -/
def AtXchg (s : State) (n i : Nat) (vd va : BitVec 5) : Prop :=
  (s.lathe (n + i)).atGang = true ∧ (s.lathe (n + i)).held =
    some { addr := (s.lathe (n + i)).pc.toNat, size := 8, ops := [(4, .xchg vd va)], gang := true }

/-- R308: the four have exchanged their slices and gone on. -/
def Exchanged (s t : State) (n : Nat) (vd va : Nat → BitVec 5) : Prop :=
  SameMemory s t ∧ t.slots = s.slots ∧ ∀ i, i < 4 →
    (t.lathe (n + i)).pc = (s.lathe (n + i)).pc + 8 ∧ (t.lathe (n + i)).pending = [(.v (vd i).toNat, s.cycle + 16)] ∧
    (∀ r, r ≠ (vd i).toNat → Map.get (t.lathe (n + i)).v r 0 = Map.get (s.lathe (n + i)).v r 0) ∧
    ∀ j, j < 4 → lane (Map.get (t.lathe (n + i)).v (vd i).toNat 0) 512 j = lane (Map.get (s.lathe (n + j)).v (va j).toNat 0) 512 i

/-! ### Encoding and the step -/

/-- A turn is left out of the turns that come. -/
def laterTurns (s : State) (rest : List Turn) : State := { s with ctl := { s.ctl with turns := rest } }

/-! ### Events -/

/-- An event or instruction answers a next state of which P holds. -/
def Does (i : Instr) (s : State) (P : State → Prop) : Prop := ∃ t, exec i s = .next t ∧ P t

/-- Nothing but context n has changed. -/
def OnlyCtx (s t : State) (n : Nat) : Prop := t = { s with ctxs := t.ctxs } ∧ ∀ m, m ≠ n → t.ctx m = s.ctx m

/-- Context n has become c, and nothing else has changed. -/
def CtxIs (s t : State) (n : Nat) (c : Ctx) : Prop := OnlyCtx s t n ∧ t.ctx n = c

/-- Every byte of module HBM outside n bytes from a reads as before. -/
def HbmOutside (s t : State) (a n : Nat) : Prop := ∀ x, (x < a ∨ a + n ≤ x) → Memory.readByte t.hbm x = Memory.readByte s.hbm x

/-- The chimes of a context stand still, and those of others go on (R76 step 1). -/
def ChimesStand (s t : State) (n : Nat) : Prop :=
  ∀ k d, (s.tile k).chimeAt = some d →
    ((s.tile k).ctx = n → (t.tile k).chimeAt = none ∧ (t.tile k).chimeLeft = some (d - s.cycle)) ∧ ((s.tile k).ctx ≠ n → t.tile k = s.tile k)

/-- No unit holds anything of any context: no Lathe, core, cluster, tile, message or slot is in use. -/
def UnitsIdle (s : State) : Prop := s.lathes = [] ∧ s.cores = [] ∧ s.clusters = [] ∧ s.tiles = [] ∧ s.mesh = [] ∧ s.slots = []

/-- A thread has begun in a free slot of a core: its pc, context, hypothesis and identity, and the first registers FULL with the values given,
the others EMPTY (Table 8-2). -/
def Began (s t : State) (core pc ctx hyp tid : Nat) (vs : List Word64) : Prop :=
  ∃ k ∈ s.freeSlots core, (t.slot k).st = .active ∧ (pc % 4 = 0 → (t.slot k).pc = BitVec.ofNat 56 pc) ∧ (t.slot k).ctx = ctx ∧ (t.slot k).hyp = hyp ∧
    (t.slot k).tid = tid ∧ (∀ r, r < vs.length → ((t.slot k).reg r).st = .full ∧ ((t.slot k).reg r).v = vs.getD r 0) ∧
    (∀ r, vs.length ≤ r → ((t.slot k).reg r).st = .empty) ∧ tid ∈ (t.ctx ctx).tids

/-- R148: a waiter entry stands at the home slice of its word. -/
def WaitersHomed (s : State) : Prop := ∀ n, ∀ e ∈ (s.slice n).waiters, homeSlice e.pa = n

/-- The messages that wait at a core, oldest first: its inbox, then its ring (R96). -/
def waiting (s : State) (core : Nat) : List Msg := (s.core core).inbox ++ (s.core core).ring

/-- A slot that a spill can write at once: no fill outstanding, no message or trap record of its own on its way, nothing buffered or
posted and not yet performed, no release store that it waits for, and no launch that waits for its core's window. -/
def Spillable (s : State) (k : Nat) : Prop :=
  (s.slot k).fills = [] ∧ (s.slot k).leaving = false ∧ (s.core (k / 16)).gather = [] ∧ s.postedBy k = false ∧
  (s.core (k / 16)).winOwner = none ∧ s.launches = [] ∧ (∀ n, (s.slot k).wait ≠ .send n) ∧ (∀ r l, (s.slot k).wait ≠ .record r l) ∧
    ∀ r, (s.slot k).wait ≠ .stored r

/-- Slot k has been written to the record at an address, and is FREE; its thread is listed as spilled (R121, R337). -/
def WasSpilled (s t : State) (k a : Nat) (onCommand : Bool) : Prop :=
  t.slot k = {} ∧ (∀ i, i < 64 → t.recordWord a i = ((s.slot k).recordWords k).getD i 0 % 2 ^ 64) ∧ HbmOutside s t a 512 ∧
  ∃ p, Map.find? (t.ctx (s.slot k).ctx).spilled (s.slot k).tid = some p ∧ p.addr = a ∧ p.core = k / 16 ∧ p.slot = k % 16 ∧
    p.onCommand = onCommand ∧ p.sent = false ∧ p.launch = (s.slot k).launch

/-- The packet at the head of a port has left it, and a RESP with a status and data has been sent there (R194). -/
def RespondsWith (s t : State) (port : Nat) (q : Packet) (rest : List Packet) (st : Nat) (data : List Byte) : Prop :=
  t.port port = Port.send { s.port port with rx := rest } 2 (Packet.slots
    { op := 0x20, dst := q.src, src := s.links.lmod, len := data.length - 1, tag := q.tag, flags := st % 8 * 2 + st / 8 * 2 ^ 7, pay := data })

/-- A port carries packets, and q is at its head. -/
def Arrived (s : State) (port : Nat) (q : Packet) (rest : List Packet) : Prop :=
  (s.port port).carries = true ∧ (s.port port).rx = q :: rest

/-- A port that has stopped: nothing of what it had sent or received in part is kept. -/
def Stopped (x : Port) (st : PortSt) : Port := { x with st := st, txSeq := 0, rxSeq := 0, replay := [], bad := none, slots := [], rx := [] }

end Sys2Proof.Claims

open Sys2Proof Sys2Proof.Machine Sys2Proof.Claims

/-- R223, Table 15-2: when its sources are FULL and d is not PENDING, each integer instruction of two sources writes d FULL with the
result of the table, goes on to the next word, and changes nothing else: no other register, no other slot, no memory. -/
def Obligations.IntegerResults : Prop :=
  ∀ p ∈ integerOps, ∀ (d a b : BitVec 5) (ta tb : BitVec 1) (s : State), Ready s (p.1 d a b ta tb) [a, b] [d] →
    ∃ t, exec (p.1 d a b ta tb) s = .next t ∧ WroteReg s t d (p.2 (s.gr a) (s.gr b))

/-- R225, R226: the immediate forms and `movi`; a shift by an immediate above 63 traps ILLEGAL.

R223, R230: `clz`, `ctz` and `popc`; `sel`, which reads d as its condition; and the bit-field instructions, whose field is bits
pos to pos + width − 1. -/
def Obligations.ImmediateAndBitResults : Prop :=
  ((∀ p ∈ immediateOps, ∀ (d a : BitVec 5) (ta : BitVec 1) (m : BitVec 13) (s : State), Ready s (p.1 d a ta m) [a] [d] →
     ∃ t, exec (p.1 d a ta m) s = .next t ∧ WroteReg s t d (p.2 (s.gr a) m)) ∧
   (∀ (d : BitVec 5) (m : BitVec 13) (s : State), (s.cur.reg d.toNat).st ≠ .pending →
     ∃ t, exec (.movi d m) s = .next t ∧ WroteReg s t d (BitVec.ofInt 64 m.toInt)) ∧
   (∀ op ∈ ([.shli, .shri, .srai] : List OpI), ∀ (d a : BitVec 5) (ta : BitVec 1) (m : BitVec 13) (s : State), 63 < m.toNat → Handles s →
     ∃ t, exec (op d a ta m) s = .next t ∧ TookTrap s t tILLEGAL s.cur.pc)) ∧
  ((∀ (d a : BitVec 5) (ta : BitVec 1) (s : State), Ready s (.clz d a ta) [a] [d] →
     ∃ t n, exec (.clz d a ta) s = .next t ∧ leadingZeros (s.gr a) n ∧ WroteReg s t d (BitVec.ofNat 64 n)) ∧
   (∀ (d a : BitVec 5) (ta : BitVec 1) (s : State), Ready s (.ctz d a ta) [a] [d] →
     ∃ t n, exec (.ctz d a ta) s = .next t ∧ trailingZeros (s.gr a) n ∧ WroteReg s t d (BitVec.ofNat 64 n)) ∧
   (∀ (d a : BitVec 5) (ta : BitVec 1) (s : State), Ready s (.popc d a ta) [a] [d] →
     ∃ t, exec (.popc d a ta) s = .next t ∧ WroteReg s t d (BitVec.ofNat 64 (onesOf (s.gr a)))) ∧
   (∀ (d a b : BitVec 5) (ta tb : BitVec 1) (s : State), Ready s (.sel d a b ta tb) [a, b, d] [d] →
     ∃ t, exec (.sel d a b ta tb) s = .next t ∧ WroteReg s t d (if s.gr d ≠ 0 then s.gr a else s.gr b)) ∧
   (∀ (d a : BitVec 5) (ta : BitVec 1) (wm1 pos : BitVec 6) (s : State), Ready s (.bfx d a ta wm1 pos) [a] [d] →
     ∃ t v, exec (.bfx d a ta wm1 pos) s = .next t ∧ WroteReg s t d v ∧
       ∀ i, i < 64 → v.getLsbD i = (decide (i ≤ wm1.toNat) && (s.gr a).getLsbD (pos.toNat + i))) ∧
   (∀ (d a : BitVec 5) (ta : BitVec 1) (wm1 pos : BitVec 6) (s : State), Ready s (.bfi d a ta wm1 pos) [a, d] [d] →
     ∃ t v, exec (.bfi d a ta wm1 pos) s = .next t ∧ WroteReg s t d v ∧
       ∀ i, i < 64 → v.getLsbD i = if pos.toNat ≤ i ∧ i ≤ pos.toNat + wm1.toNat then (s.gr a).getLsbD (i - pos.toNat) else (s.gr d).getLsbD i))

/-- R224, R116, Table 15-3: the division instructions never trap: d becomes PENDING with a fill of the quotient or the remainder, at most 34
cycles after the issue (R221), which satisfy A = q·B + r with r of the sign of A, and at a divisor of 0 are all ones and A. -/
def Obligations.DivisionResults : Prop :=
  ∀ (d a b : BitVec 5) (ta tb : BitVec 1) (s : State), (s.cur.reg a.toNat).st = .full → (s.cur.reg b.toNat).st = .full →
    (s.cur.reg d.toNat).st ≠ .pending →
    (∃ t1 t2 q r, exec (.div d a b ta tb) s = .next t1 ∧ exec (.rem d a b ta tb) s = .next t2 ∧ LateReg s t1 d 34 q ∧ LateReg s t2 d 34 r ∧
      if s.gr b = 0 then q = BitVec.allOnes 64 ∧ r = s.gr a
      else if s.gr a = BitVec.intMin 64 ∧ s.gr b = BitVec.allOnes 64 then q = BitVec.intMin 64 ∧ r = 0
      else (s.gr a).toInt = q.toInt * (s.gr b).toInt + r.toInt ∧ r.toInt.natAbs < (s.gr b).toInt.natAbs ∧ 0 ≤ r.toInt * (s.gr a).toInt) ∧
    (∃ t1 t2 q r, exec (.divz d a b ta tb) s = .next t1 ∧ exec (.remz d a b ta tb) s = .next t2 ∧ LateReg s t1 d 34 q ∧ LateReg s t2 d 34 r ∧
      if s.gr b = 0 then q = BitVec.allOnes 64 ∧ r = s.gr a
      else (s.gr a).toNat = q.toNat * (s.gr b).toNat + r.toNat ∧ r.toNat < (s.gr b).toNat)

/-- R235 to R237, R234: the FP64 instructions, the conversions and the pointer instructions of plain results. `fmadd` reads d as its addend;
`fdiv` is long-latency, of at most 26 cycles (R221); `cvtff` names its narrow format in a field.

R234, R27: `pidx` moves the va by the index times the size of the pointer's element and keeps the top byte; a pointer whose format
fields are bad traps FORMAT_FAULT and writes nothing. -/
def Obligations.FloatAndPointerResults : Prop :=
  ((∀ p ∈ otherOps2, ∀ (d a b : BitVec 5) (ta tb : BitVec 1) (s : State), Ready s (p.1 d a b ta tb) [a, b] [d] →
     ∃ t, exec (p.1 d a b ta tb) s = .next t ∧ WroteReg s t d (p.2 (s.gr a) (s.gr b))) ∧
   (∀ (d a b : BitVec 5) (ta tb : BitVec 1) (s : State), Ready s (.fmadd d a b ta tb) [a, b, d] [d] →
     ∃ t, exec (.fmadd d a b ta tb) s = .next t ∧
       WroteReg s t d (BitVec.ofNat 64 (fmaCode fp64 (s.gr a).toNat (s.gr b).toNat (s.gr d).toNat))) ∧
   (∀ (d a b : BitVec 5) (ta tb : BitVec 1) (s : State), Ready s (.fdiv d a b ta tb) [a, b] [d] →
     ∃ t, exec (.fdiv d a b ta tb) s = .next t ∧
       LateReg s t d 26 (BitVec.ofNat 64 (divTo fp64 (toFV fp64 (s.gr a).toNat) (toFV fp64 (s.gr b).toNat)))) ∧
   (∀ (d a : BitVec 5) (ta : BitVec 1) (s : State), Ready s (.cvtfi d a ta) [a] [d] →
     ∃ t, exec (.cvtfi d a ta) s = .next t ∧
       WroteReg s t d (BitVec.ofInt 64 (fvToInt (-2 ^ 63) (2 ^ 63 - 1) (toFV fp64 (s.gr a).toNat)))) ∧
   (∀ (d a : BitVec 5) (ta : BitVec 1) (s : State), Ready s (.cvtif d a ta) [a] [d] →
     ∃ t, exec (.cvtif d a ta) s = .next t ∧ WroteReg s t d (BitVec.ofNat 64 (ofFV fp64 (intToFV (s.gr a).toInt)))) ∧
   (∀ (d a fmt : BitVec 5) (ta : BitVec 1) (s : State), Ready s (.cvtffN d a fmt ta) [a] [d] →
     ∃ t, exec (.cvtffN d a fmt ta) s = .next t ∧
       WroteReg s t d (BitVec.ofNat 64 (fcvtCode fp64 (fmtOfCode fmt.toNat) (s.gr a).toNat))) ∧
   (∀ (d a fmt : BitVec 5) (ta : BitVec 1) (s : State), Ready s (.cvtffW d a fmt ta) [a] [d] →
     ∃ t, exec (.cvtffW d a fmt ta) s = .next t ∧
       WroteReg s t d (BitVec.ofNat 64 (fcvtCode (fmtOfCode fmt.toNat) fp64 ((s.gr a).toNat % 2 ^ (fmtOfCode fmt.toNat).width)))) ∧
   (∀ (d a : BitVec 5) (ta : BitVec 1) (s : State), Ready s (.pstrip d a ta) [a] [d] →
     ∃ t, exec (.pstrip d a ta) s = .next t ∧ WroteReg s t d (0#8 ++ (s.gr a).extractLsb' 0 56))) ∧
  (∀ (d a b : BitVec 5) (ta tb : BitVec 1) (s : State), Ready s (.pidx d a b ta tb) [a, b] [d] →
     (formatBad (s.gr a) false = false → ∃ t, exec (.pidx d a b ta tb) s = .next t ∧
       WroteReg s t d ((s.gr a).extractLsb' 56 8 ++
         BitVec.ofNat 56 ((s.gr a).toNat % 2 ^ 56 + (s.gr b).toNat * elemSize ((s.gr a).toNat / 2 ^ 59)))) ∧
     (formatBad (s.gr a) false = true → Handles s → ∃ t, exec (.pidx d a b ta tb) s = .next t ∧ TookTrap s t tFORMAT_FAULT s.cur.pc))

/-- R21, R20, R22, R235: the sums, differences, products, fused products, quotients and conversions that the instructions' results are named by are
their exact values rounded once, to nearest, ties to even: of finite encodings of every format. A zero exact sum is +0 unless both addends are −0. A
NaN operand gives the format's one NaN, and so do ∞ − ∞, 0 × ∞, 0 / 0 and ∞ / ∞; another value over a zero gives an infinity. -/
def Obligations.RoundingOnce : Prop :=
  ∀ f ∈ formats, ∀ a b d : Nat, ∀ sa sb sd : Bool, sa = a.testBit (f.e + f.m) → sb = b.testBit (f.e + f.m) → sd = d.testBit (f.e + f.m) →
    (FiniteCode f a → FiniteCode f b →
      RoundsTo f (valueOf f a + valueOf f b) (sa && sb && decide (valueOf f a = 0)) (faddCode f a b) ∧
      RoundsTo f (valueOf f a - valueOf f b) (sa && !sb && decide (valueOf f a = 0)) (fsubCode f a b) ∧
      RoundsTo f (valueOf f a * valueOf f b) (sa != sb) (fmulCode f a b) ∧
      (valueOf f b ≠ 0 → RoundsTo f (valueOf f a / valueOf f b) (sa != sb) (divTo f (toFV f a) (toFV f b))) ∧
      (FiniteCode f d → RoundsTo f (valueOf f a * valueOf f b + valueOf f d)
        ((sa != sb) && sd && decide (valueOf f a * valueOf f b = 0)) (fmaCode f a b d)) ∧
      (valueOf f b = 0 → (valueOf f a = 0 → divTo f (toFV f a) (toFV f b) = f.nan) ∧
        (valueOf f a ≠ 0 → f.noInf = false → toFV f (divTo f (toFV f a) (toFV f b)) = .inf (sa != sb)))) ∧
    (FiniteCode f a → (∀ g ∈ formats, RoundsTo g (valueOf f a) sa (fcvtCode f g a)) ∧
      ∃ n, RoundsToInt (valueOf f a) n ∧ ∀ lo hi : Int, lo ≤ hi → fvToInt lo hi (toFV f a) = max lo (min n hi)) ∧
    (∀ x : Int, RoundsTo f (x : ℚ) false (ofFV f (intToFV x))) ∧
    (toFV f a = .nan ∨ toFV f b = .nan → faddCode f a b = f.nan ∧ fsubCode f a b = f.nan ∧ fmulCode f a b = f.nan ∧ fmaCode f a b d = f.nan ∧
      divTo f (toFV f a) (toFV f b) = f.nan) ∧
    (toFV f a = .nan → (∀ g ∈ formats, fcvtCode f g a = g.nan) ∧ ∀ lo hi : Int, fvToInt lo hi (toFV f a) = 0) ∧
    (toFV f a = .inf sa → (toFV f b = .inf (!sa) → faddCode f a b = f.nan) ∧ (toFV f b = .inf sa → fsubCode f a b = f.nan) ∧
      (FiniteCode f b → valueOf f b = 0 → fmulCode f a b = f.nan ∧ fmulCode f b a = f.nan) ∧
      (toFV f b = .inf sb → divTo f (toFV f a) (toFV f b) = f.nan))

/-- R227 to R229: a thread whose launch owns the constant window of its core reads it by `movk` and `movkd`; where nobody owns the window, or
another launch does, both trap CONST_MISS. `movkd` of an odd index traps ILLEGAL. While a sealed tile of the cluster is being read the word may
come later, by a fill.

R231 to R233: `fpick` and `fpack` use the entry of the core's field-layout table that the word names, if its tag is the thread's
context; otherwise they trap CONST_MISS. An entry of that context with a malformed descriptor traps ILLEGAL. -/
def Obligations.WindowAndFieldLayout : Prop :=
  ((∀ (d : BitVec 5) (index : BitVec 8) (s : State), (s.cur.reg d.toNat).st ≠ .pending → s.cur.launch.isSome = true →
     (s.core s.coreNo).winOwner = s.cur.launch →
     (∃ t, exec (.movk d index) s = .next t ∧ WindowTook s t d ((BitVec.ofNat 32 (s.windowWord index.toNat)).signExtend 64)) ∧
     (index.toNat % 2 = 0 → ∃ t, exec (.movkd d index) s = .next t ∧
       WindowTook s t d (BitVec.ofNat 32 (s.windowWord (index.toNat + 1)) ++ BitVec.ofNat 32 (s.windowWord index.toNat))) ∧
     (index.toNat % 2 = 1 → Handles s → ∃ t, exec (.movkd d index) s = .next t ∧ TookTrap s t tILLEGAL s.cur.pc)) ∧
   (∀ (d : BitVec 5) (index : BitVec 8) (s : State), (s.cur.reg d.toNat).st ≠ .pending →
     (s.core s.coreNo).winOwner = none ∨ (s.core s.coreNo).winOwner ≠ s.cur.launch → Handles s →
     (∃ t, exec (.movk d index) s = .next t ∧ TookTrap s t tCONST_MISS s.cur.pc) ∧
     (index.toNat % 2 = 0 → ∃ t, exec (.movkd d index) s = .next t ∧ TookTrap s t tCONST_MISS s.cur.pc))) ∧
  (∀ (d a entry : BitVec 5) (ta : BitVec 1) (s : State) (e : FltEntry), Map.get (s.core s.coreNo).flt entry.toNat {} = e →
     (s.cur.reg a.toNat).st = .full → (s.cur.reg d.toNat).st ≠ .pending →
     (e.tag = some s.cur.ctx → (∀ k, k < 4 → descBad (descOf e.v.toNat k) = false) →
       (∃ t, exec (.fpick d a ta entry) s = .next t ∧ WroteReg s t d (BitVec.ofNat 64
         (pickLane e.v.toNat (s.gr a).toNat 0 + pickLane e.v.toNat (s.gr a).toNat 1 + pickLane e.v.toNat (s.gr a).toNat 2
           + pickLane e.v.toNat (s.gr a).toNat 3))) ∧
       (∃ t, exec (.fpack d a ta entry) s = .next t ∧ WroteReg s t d (BitVec.ofNat 64
         (packLane e.v.toNat (s.gr a).toNat (packLane e.v.toNat (s.gr a).toNat (packLane e.v.toNat (s.gr a).toNat
           (packLane e.v.toNat (s.gr a).toNat 0 0) 1) 2) 3)))) ∧
     (e.tag = some s.cur.ctx → (∃ k, k < 4 ∧ descBad (descOf e.v.toNat k) = true) → Handles s →
       (∃ t, exec (.fpick d a ta entry) s = .next t ∧ TookTrap s t tILLEGAL s.cur.pc) ∧
       (∃ t, exec (.fpack d a ta entry) s = .next t ∧ TookTrap s t tILLEGAL s.cur.pc)) ∧
     (e.tag ≠ some s.cur.ctx → Handles s →
       (∃ t, exec (.fpick d a ta entry) s = .next t ∧ TookTrap s t tCONST_MISS s.cur.pc) ∧
       (∃ t, exec (.fpack d a ta entry) s = .next t ∧ TookTrap s t tCONST_MISS s.cur.pc)))

/-- R238: the conditional branches go to PC + 4·disp when their condition holds, else to the next word, and write nothing.

R239, R240: `b` and `bl` go to PC + 4·disp, `jr` and `jlr` to A[55:0]; `bl` writes PC + 4 to g7 and `jlr` to d. A target of `jr` or `jlr`
whose low two bits are not zero traps ALIGN_FAULT, with no register changed. -/
def Obligations.Branches : Prop :=
  ((∀ p ∈ ([(.beq, fun a b => a = b), (.bne, fun a b => a ≠ b), (.blt, fun a b => a.toInt < b.toInt), (.bge, fun a b => b.toInt ≤ a.toInt)] :
       List ((BitVec 5 → BitVec 5 → BitVec 1 → BitVec 1 → BitVec 12 → Instr) × (Word64 → Word64 → Prop))),
     ∀ (a b : BitVec 5) (ta tb : BitVec 1) (disp : BitVec 12) (s : State), Ready s (p.1 a b ta tb disp) [a, b] [] →
       ∃ t, exec (p.1 a b ta tb disp) s = .next t ∧
         (p.2 (s.gr a) (s.gr b) → WentTo s t (s.cur.pc + BitVec.ofInt 56 (4 * disp.toInt))) ∧
         (¬ p.2 (s.gr a) (s.gr b) → WentTo s t (s.cur.pc + 4))) ∧
   (∀ p ∈ ([(.bltz, fun a => a.toInt < 0), (.bgez, fun a => 0 ≤ a.toInt)] :
       List ((BitVec 5 → BitVec 1 → BitVec 12 → Instr) × (Word64 → Prop))),
     ∀ (a : BitVec 5) (ta : BitVec 1) (disp : BitVec 12) (s : State), Ready s (p.1 a ta disp) [a] [] →
       ∃ t, exec (p.1 a ta disp) s = .next t ∧
         (p.2 (s.gr a) → WentTo s t (s.cur.pc + BitVec.ofInt 56 (4 * disp.toInt))) ∧ (¬ p.2 (s.gr a) → WentTo s t (s.cur.pc + 4)))) ∧
  ((∀ (disp : BitVec 24) (s : State), ∃ t, exec (.b disp) s = .next t ∧ WentTo s t (s.cur.pc + BitVec.ofInt 56 (4 * disp.toInt))) ∧
   (∀ (disp : BitVec 24) (s : State), (s.cur.reg 7).st ≠ .pending →
     ∃ t, exec (.bl disp) s = .next t ∧ OnlySlot s t ∧ AtPc s t (s.cur.pc + BitVec.ofInt 56 (4 * disp.toInt)) ∧ OtherRegs s t 7 ∧
       (t.cur.reg 7).st = .full ∧ (t.cur.reg 7).v = (s.cur.pc + 4).zeroExtend 64) ∧
   (∀ (a : BitVec 5) (ta : BitVec 1) (s : State), Ready s (.jr a ta) [a] [] →
     ((s.gr a).toNat % 4 = 0 → ∃ t, exec (.jr a ta) s = .next t ∧ WentTo s t ((s.gr a).extractLsb' 0 56)) ∧
     ((s.gr a).toNat % 4 ≠ 0 → Handles s →
       ∃ t, exec (.jr a ta) s = .next t ∧ TookTrap s t (tALIGN_FAULT (0#8 ++ (s.gr a).extractLsb' 0 56)) s.cur.pc)) ∧
   (∀ (d a : BitVec 5) (ta : BitVec 1) (s : State), Ready s (.jlr d a ta) [a] [d] →
     ((s.gr a).toNat % 4 = 0 → ∃ t, exec (.jlr d a ta) s = .next t ∧ OnlySlot s t ∧ AtPc s t ((s.gr a).extractLsb' 0 56) ∧
       OtherRegs s t d.toNat ∧ (t.cur.reg d.toNat).st = .full ∧ (t.cur.reg d.toNat).v = (s.cur.pc + 4).zeroExtend 64) ∧
     ((s.gr a).toNat % 4 ≠ 0 → Handles s →
       ∃ t, exec (.jlr d a ta) s = .next t ∧ TookTrap s t (tALIGN_FAULT (0#8 ++ (s.gr a).extractLsb' 0 56)) s.cur.pc)))

/-- R115, R203: an instruction of two sources whose marked source is EMPTY traps EMPTY_READ, whatever it awaits (assumption 12); one that is not
ready otherwise parks on the registers it awaits, marked or not, its pc kept; and a spindle instruction whose fields are illegal traps ILLEGAL,
whatever its operands (assumption 12). R204: an unassigned opcode traps ILLEGAL. R169, R335: an
instruction whose word cannot be fetched traps FETCH_FAULT with its own address. -/
def Obligations.UnreadyOperands : Prop :=
  (∀ p ∈ integerOps ++ otherOps2, ∀ (d a b : BitVec 5) (ta tb : BitVec 1) (s : State), wellFormed (p.1 d a b ta tb) = true →
    ((ta = 1#1 ∧ (s.cur.reg a.toNat).st = .empty) ∨ (tb = 1#1 ∧ (s.cur.reg b.toNat).st = .empty) → Handles s →
      ∃ t, exec (p.1 d a b ta tb) s = .next t ∧ TookTrap s t tEMPTY_READ s.cur.pc) ∧
    (¬ ((ta = 1#1 ∧ (s.cur.reg a.toNat).st = .empty) ∨ (tb = 1#1 ∧ (s.cur.reg b.toNat).st = .empty)) →
      ((s.cur.reg a.toNat).st ≠ .full ∨ (s.cur.reg b.toNat).st ≠ .full ∨ (s.cur.reg d.toNat).st = .pending) →
      ∃ t rs, exec (p.1 d a b ta tb) s = .next t ∧ OnlySlot s t ∧
        t.cur = { s.cur with st := .parkedReg, awaiting := rs, wait := .none, parkedAt := s.cycle } ∧
        ∀ r, r ∈ rs ↔ ((r = a.toNat ∨ r = b.toNat) ∧ (s.cur.reg r).st ≠ .full) ∨ (r = d.toNat ∧ (s.cur.reg r).st = .pending))) ∧
  (∀ (i : Instr) (s : State), kindOf i = none → wellFormed i = false → Handles s →
    ∃ t, exec i s = .next t ∧ TookTrap s t tILLEGAL s.cur.pc) ∧
  (∀ (w : BitVec 32) (s : State), Handles s → ∃ t, exec (.unassignedOpcode w) s = .next t ∧ TookTrap s t tILLEGAL s.cur.pc) ∧
  (∀ (s : State) (r st : Nat), s.fetchWord s.key = .fault r st → s.cur.fetched = [] → Handles s →
    ∃ t, exec .fetchFault s = .next t ∧
      TookTrap s t { cause := 5, reason := r, status := st, faddr := s.cur.pc.zeroExtend 64 } s.cur.pc)

/-- R273, R279, R330, R332, R333, Table 20-2: what takes a trap by its own effect completes with it. `trap` and `brk` take theirs in the slot:
TCAUSE, TADDR and TPC are saved, HND is set and the pc becomes TVEC; TPC is the next word for `trap` and the instruction itself for `brk`,
whose code is taken modulo 4,096 (assumption 23). A bundle that is illegal at decode stops its Lathe with ILLEGAL in the slot at fault and has no
other effect. When a stopped Lathe's drain ends, its
record stands at the next free index of its context's ring, and the trap core is sent the message that starts the handler at CVEC. -/
def Obligations.TrapEntry : Prop :=
  (∀ (code : BitVec 13) (s : State), Handles s →
    (code.toNat < 4096 → ∃ t, exec (.trap code) s = .next t ∧ TookTrap s t { cause := 19, code := code.toNat } (s.cur.pc + 4)) ∧
    (∃ t, exec (.brk code) s = .next t ∧ TookTrap s t { cause := 20, code := code.toNat % 4096 } s.cur.pc)) ∧
  (∀ (slot : BitVec 4) (s : State), CanTrap s →
    ∃ t, exec (.illegalBundle slot) s = .next t ∧ LatheTrapped s t tILLEGAL slot.toNat) ∧
  (∀ (s : State) (r : TrapRec) (i a b : Nat), s.trapDue (lno s) = some r → s.drained (lno s) = true → s.inTurn r = true →
    s.ringIndex r.ctx = some i → b = (s.ctx r.ctx).saveb * 4096 → a = b + 0x1000 + 64 * (i % 256) →
    ∃ t, exec .latheTrap s = .next t ∧ ((t.lathe (lno s)).trap.map (·.written)) = some true ∧
      (∀ j, j < 8 → t.hbmRead (a + 8 * j) 8 = r.words.getD j 0 % 2 ^ 64) ∧
      (s.hbmRead (b + 0x10) 8 % 2 ^ 56 ≠ 0 → ∃ m, t.mesh = s.mesh ++ [((s.ctx r.ctx).trapc, m)] ∧ m.kind = .send ∧ m.hyp = 0 ∧ m.ctx = r.ctx ∧
        m.pc = s.hbmRead (b + 0x10) 8 % 2 ^ 56 ∧ m.g = [BitVec.ofNat 64 a, r.cause, 0, 0, 0, 0, 0, 0].map fullReg))

/-- R330, R332: with no TVEC the trap of a `trap` or `brk` is forwarded: its record (Table 20-4) is written to the ring at its next index, with
FWD set and bit 63 of w4 set, and the slot becomes FREE; so is that of one in a handler, as DOUBLE with its own cause in w5. In a handler on the trap
core it faults the context. The code of `brk` is taken modulo 4,096 (assumption 23). -/
def Obligations.TrapForwarded : Prop :=
  ∀ (code : BitVec 13) (op : Instr) (cause : Nat) (s : State), (op, cause) ∈ [(Instr.trap code, 19), (Instr.brk code, 20)] →
  (op = .trap code → code.toNat < 4096) → s.ctl.at_.slot < 16 →
  (∀ i c aux : Nat, (s.cur.hnd = false ∧ s.hbmRead ((s.ctx s.cur.ctx).saveb * 4096 + 8) 8 = 0 ∧ c = cause ∧ aux = 0 ∨
      s.cur.hnd = true ∧ s.coreNo ≠ (s.ctx s.cur.ctx).trapc ∧ c = 35 ∧ aux = cause) →
    s.ringIndex s.cur.ctx = some i → (∀ c n, (s.ctx s.cur.ctx).recAt = some (c, n) → n ≤ 4096) → s.cur.fills = [] →
    ∃ t, exec op s = .next t ∧ t.slot s.key = {} ∧
      Memory.readBytes t.hbm ((s.ctx s.cur.ctx).saveb * 4096 + 0x1000 + 64 * (i % 256)) 64 =
        ([(code.toNat % 4096) * 2 ^ 32 + 2 ^ 29 + c, s.cur.pc.toNat, 0, 0, 2 ^ 63 + s.cur.tid * 2 ^ 28 + s.cur.ctx * 2 ^ 22 + s.coreNo,
          aux, s.cycle, 0] : List Nat).flatMap (leBytes 8)) ∧
  (s.cur.hnd = true → s.coreNo = (s.ctx s.cur.ctx).trapc → (s.ctx s.cur.ctx).st = .running →
    exec op s = .next (s.setCtx s.cur.ctx { s.ctx s.cur.ctx with st := .faulted, live := [] }))

/-- R273: `eret` in a handler entered in the slot resumes at TPC, where that is a multiple of 4 as every pc is (R200), with HND 0 and its registers as they are; a second `eret`, out of a
handler, traps ILLEGAL. In a handler that the trap core started, it frees the slot and retires the record: bit 63 of its w4 becomes 0. -/
def Obligations.TrapReturn : Prop :=
  (∀ s : State, s.cur.hnd = true → s.cur.trec = 0 → ∃ pc, exec .eret s = .next
      (s.setCur { s.cur with pc := pc, hnd := false, tcause := 0, tpc := 0, taddr := 0 }) ∧
    (s.cur.tpc.toNat % 4 = 0 → pc = s.cur.tpc.extractLsb' 0 56)) ∧
  (∀ s : State, Handles s → ∃ t, exec .eret s = .next t ∧ TookTrap s t tILLEGAL s.cur.pc) ∧
  (∀ (s : State) (i : Nat), s.cur.hnd = true → i < 256 → s.cur.trec.toNat = (s.ctx s.cur.ctx).saveb * 4096 + 0x1000 + 64 * i →
    s.cur.recRetired = false → s.cur.fills = [] → (s.ctx s.cur.ctx).recs = [] →
    (s.hbmRead (s.cur.trec.toNat + 32) 8).testBit 63 = true →
    ∃ t, exec .eret s = .next t ∧ t.slot s.key = {} ∧ (t.hbmRead (s.cur.trec.toNat + 32) 8).testBit 63 = false)

/-- R272, Table 16-6: `getk` reads each system register that the table assigns; any other number traps ILLEGAL.

R272, Table 16-6: `setk` writes an RW register and clears the bits of a W1C register that are 1 in its operand. TPC is writable only
in a handler, and OVEC, TRAPC, PFXB and LFLAG only under hypothesis 0: otherwise `setk` traps ILLEGAL, as it does for an unassigned number, for a
read-only register, and for values that OVEC, TRAPC and PFXB refuse. -/
def Obligations.SystemRegisters : Prop :=
  ((∀ p ∈ systemRegisters, ∀ (d : BitVec 5) (s : State), (s.cur.reg d.toNat).st ≠ .pending →
     ∃ t, exec (.getk d (BitVec.ofNat 13 p.1)) s = .next t ∧ WroteReg s t d (BitVec.ofNat 64 (p.2 s))) ∧
   (∀ (k : BitVec 13) (d : BitVec 5) (s : State), k.toNat ∉ systemRegisters.map (·.1) → (s.cur.reg d.toNat).st ≠ .pending → Handles s →
     ∃ t, exec (.getk d k) s = .next t ∧ TookTrap s t tILLEGAL s.cur.pc)) ∧
  ((∀ p ∈ writableRegisters, ∀ (a : BitVec 5) (ta : BitVec 1) (s : State), (s.cur.reg a.toNat).st = .full →
     s.cur.hyp = 0 ∨ p.1 ∉ contextRegisters → (p.1 = 33 → s.cur.hnd = true) → s.kBadValue p.1 (s.gr a).toNat = false →
     ∃ t, exec (.setk a ta (BitVec.ofNat 13 p.1)) s = .next t ∧ t.kRead p.1 = p.2 (s.gr a) ∧ WentOn s t) ∧
   (∀ k ∈ clearableRegisters, ∀ (a : BitVec 5) (ta : BitVec 1) (s : State), (s.cur.reg a.toNat).st = .full →
     s.cur.hyp = 0 ∨ k ∈ ([11, 20, 21, 22, 23, 24] : List Nat) → ∃ t, exec (.setk a ta (BitVec.ofNat 13 k)) s = .next t ∧
       BitVec.ofNat 64 (t.kRead k) = BitVec.ofNat 64 (s.kRead k) &&& ~~~(s.gr a) ∧ WentOn s t) ∧
   (∀ k ∈ ([0, 1, 2, 3, 9, 12, 14, 25, 32, 34, 35] : List Nat), ∀ (a : BitVec 5) (ta : BitVec 1) (s : State),
     (s.cur.reg a.toNat).st = .full → Handles s → ∃ t, exec (.setk a ta (BitVec.ofNat 13 k)) s = .next t ∧ TookTrap s t tILLEGAL s.cur.pc) ∧
   (∀ (k : BitVec 13) (a : BitVec 5) (ta : BitVec 1) (s : State), (s.cur.reg a.toNat).st = .full → Handles s →
     (k.toNat ∈ contextRegisters ∧ s.cur.hyp ≠ 0) ∨ (k.toNat = 33 ∧ s.cur.hnd = false) ∨ k.toNat ∉ systemRegisters.map (·.1) ∨
       (k.toNat = 4 ∧ ((s.gr a).toNat % 4 ≠ 0 ∨ 2 ^ 56 ≤ (s.gr a).toNat)) ∨
       (k.toNat = 5 ∧ s.fenced ((s.gr a).toNat % 4096 / 16) = true) ∨ (k.toNat = 6 ∧ (s.gr a).toNat % 2048 ≠ 0) →
     ∃ t, exec (.setk a ta k) s = .next t ∧ TookTrap s t tILLEGAL s.cur.pc))

/-- R242 to R244: an aligned load of readable bytes sets d PENDING with a fill of the bytes at its address, converted as Table 16-1 says:
scratchpad bytes of its cluster's linear view; committed bytes of module HBM, for a thread of hypothesis 0 whose core holds no line and
no buffered byte of them; bytes of host memory. No byte of memory changes. That they are the bytes as they are at issue is the model's choice
(assumption 7). -/
def Obligations.LoadResults : Prop :=
  ∀ p ∈ loadOps, ∀ (d base : BitVec 5) (ta : BitVec 1) (scope : BitVec 3) (order : BitVec 2) (off : BitVec 8) (s : State),
    Ready s (p.1 d base ta scope order off) [base] [d] → Quiet s → ea s base off p.2.1 % p.2.1 = 0 →
    (∀ a, s.resolve s.key (ea s base off p.2.1) .read = .at_ (.sp a) → s.spPoisoned a p.2.1 = false →
      ∃ t, exec (p.1 d base ta scope order off) s = .next t ∧ Loaded s t d (p.2.2 (leNat (s.spBytes a p.2.1)))) ∧
    (∀ pa, s.resolve s.key (ea s base off p.2.1) .read = .at_ (.hbm pa) → s.poisoned pa p.2.1 = false → s.cur.hyp = 0 →
      (s.core s.coreNo).l1 = [] → s.ctl.at_.slot < 16 →
      ∃ t, exec (p.1 d base ta scope order off) s = .next t ∧ Loaded s t d (p.2.2 (leNat (Memory.readBytes s.hbm pa p.2.1)))) ∧
    (∀ pa, s.resolve s.key (ea s base off p.2.1) .read = .at_ (.host pa) → s.hostFails pa p.2.1 = false → s.ctl.at_.slot < 16 →
      ∃ t, exec (p.1 d base ta scope order off) s = .next t ∧ Loaded s t d (p.2.2 (leNat (Memory.readBytes s.host pa p.2.1))))

/-- R245, R42: an aligned store to scratchpad writes the low bytes of D at its address and no other byte of any memory, and changes no
register but the pc.

R48, R245: an aligned store to global memory without release order enters the gathering buffer of its core; no byte of memory changes
until the entry drains. A thread under a hypothesis stores to module HBM only: to host memory or another module it traps. -/
def Obligations.PlainStores : Prop :=
  (∀ p ∈ storeOps, ∀ (d base : BitVec 5) (ta : BitVec 1) (scope : BitVec 3) (order : BitVec 2) (off : BitVec 8) (s : State) (a : Nat),
      Ready s (p.1 d base ta scope order off) [base, d] [] → Quiet s → ea s base off p.2 % p.2 = 0 →
      s.resolve s.key (ea s base off p.2) .write = .at_ (.sp a) → Writable s a p.2 →
      ∃ t, exec (p.1 d base ta scope order off) s = .next t ∧ t.cur = { s.cur with pc := s.cur.pc + 4 } ∧
        (∀ k, k ≠ s.key → t.slot k = s.slot k) ∧ t.hbm = s.hbm ∧ t.host = s.host ∧ Stored s.sp t.sp a (leBytes p.2 (s.gr d).toNat)) ∧
  (∀ p ∈ storeOps, ∀ (d base : BitVec 5) (ta : BitVec 1) (off : BitVec 8) (s : State) (tgt rmod pa : Nat),
      Ready s (p.1 d base ta 0 0 off) [base, d] [] → Quiet s → ea s base off p.2 % p.2 = 0 → s.ctl.at_.slot < 16 →
      (s.resolve s.key (ea s base off p.2) .write = .at_ (.hbm pa) ∧ tgt = 0 ∧ rmod = 0 ∨
       s.resolve s.key (ea s base off p.2) .write = .at_ (.host pa) ∧ tgt = 1 ∧ rmod = 0 ∨
       s.resolve s.key (ea s base off p.2) .write = .at_ (.remote rmod pa) ∧ tgt = 2) →
      (tgt = 0 ∨ s.cur.hyp = 0 →
        ∃ t, exec (p.1 d base ta 0 0 off) s = .next t ∧ WentOn s t ∧
          (t.core s.coreNo).gather = [{ tgt := tgt, rmod := rmod, block := pa / 256 * 256, ctx := s.cur.ctx, hyp := s.cur.hyp,
                                        va := s.globalVa (ea s base off p.2) / 256 * 256,
                                        bytes := putBytes s.key (pa % 256) [] (leBytes p.2 (s.gr d).toNat), mergedAt := s.cycle }]) ∧
      (tgt ≠ 0 → s.cur.hyp ≠ 0 → Handles s →
        ∃ t, exec (p.1 d base ta 0 0 off) s = .next t ∧ TookTrap s t { cause := 17, faddr := faddr s (ea s base off p.2) } s.cur.pc))

/-- R246, Table 16-2: `ldt` and `stt` convert by the format of their fat pointer, on scratchpad; a bad format traps FORMAT_FAULT. That `ldt` brings
the bytes as they are at issue is the model's choice (assumption 7). -/
def Obligations.TypedAccess : Prop :=
  ∀ (d base : BitVec 5) (ta : BitVec 1) (scope : BitVec 3) (order : BitVec 2) (off : BitVec 8) (s : State) (n fmt : Nat),
    Quiet s → fmt = (s.gr base).toNat / 2 ^ 59 → n = elemSize fmt →
    (Ready s (.ldt d base ta scope order off) [base] [d] → formatBad (s.gr base) true = false → ea s base off n % n = 0 →
      ∀ a, s.resolve s.key (ea s base off n) .read = .at_ (.sp a) → s.spPoisoned a n = false →
        ∃ t, exec (.ldt d base ta scope order off) s = .next t ∧
          Loaded s t d (convWord (typedConv fmt) n (leNat (s.spBytes a n)))) ∧
    (Ready s (.stt d base ta scope order off) [base, d] [] → formatBad (s.gr base) true = false → ea s base off n % n = 0 →
      ∀ a, s.resolve s.key (ea s base off n) .write = .at_ (.sp a) → Writable s a n →
        ∃ t, exec (.stt d base ta scope order off) s = .next t ∧ t.cur = { s.cur with pc := s.cur.pc + 4 } ∧ t.hbm = s.hbm ∧
          t.host = s.host ∧ Stored s.sp t.sp a (typedBytes fmt (s.gr d))) ∧
    (Ready s (.ldt d base ta scope order off) [base] [d] → formatBad (s.gr base) true = true → Handles s →
      ∃ t, exec (.ldt d base ta scope order off) s = .next t ∧ TookTrap s t tFORMAT_FAULT s.cur.pc) ∧
    (Ready s (.stt d base ta scope order off) [base, d] [] → formatBad (s.gr base) true = true → Handles s →
      ∃ t, exec (.stt d base ta scope order off) s = .next t ∧ TookTrap s t tFORMAT_FAULT s.cur.pc)

/-- R51, R249: an atomic stores the result of Table 16-3 in the eight bytes at its address, all at once, and brings the old value to d: in
scratchpad, and in committed module HBM for a thread of hypothesis 0 with no buffered byte on any core.

R250, R149: `cas` stores d + 1 where the word equals d, else nothing, and brings the old value to d; the batch add claims an index
while fill is below size, closes the word when it is full, and returns the old word, with bit 63 set where nothing was claimed. -/
def Obligations.AtomicResults : Prop :=
  (∀ p ∈ atomicOps, ∀ (d base : BitVec 5) (ta : BitVec 1) (scope : BitVec 3) (order : BitVec 2) (off : BitVec 8) (s : State),
     Ready s (p.1 d base ta scope order off) [base, d] [d] → Quiet s → ea s base off 8 % 8 = 0 →
     (∀ a, s.resolve s.key (ea s base off 8) .write = .at_ (.sp a) → Writable s a 8 → s.spPoisoned a 8 = false →
       ∃ t, exec (p.1 d base ta scope order off) s = .next t ∧ t.cur.pc = s.cur.pc + 4 ∧ OtherRegs s t d.toNat ∧
         (t.cur.reg d.toNat).st = .pending ∧
         (∃ f ∈ t.cur.fills, f.reg = d.toNat ∧ f.src = .ready ∧ f.v = BitVec.ofNat 64 (leNat (s.spBytes a 8))) ∧
         t.hbm = s.hbm ∧ t.host = s.host ∧
         Stored s.sp t.sp a (leBytes 8 (p.2 (BitVec.ofNat 64 (leNat (s.spBytes a 8))) (s.gr d)).toNat)) ∧
     (∀ pa, s.resolve s.key (ea s base off 8) .write = .at_ (.hbm pa) → s.cur.hyp = 0 → BuffersEmpty s → s.poisoned pa 8 = false →
       ∃ t, exec (p.1 d base ta scope order off) s = .next t ∧ t.cur.pc = s.cur.pc + 4 ∧ OtherRegs s t d.toNat ∧
         (t.cur.reg d.toNat).st = .pending ∧
         (∃ f ∈ t.cur.fills, f.reg = d.toNat ∧ f.src = .ready ∧ f.v = BitVec.ofNat 64 (leNat (Memory.readBytes s.hbm pa 8))) ∧
         t.sp = s.sp ∧ t.host = s.host ∧
         Stored s.hbm t.hbm pa (leBytes 8 (p.2 (BitVec.ofNat 64 (leNat (Memory.readBytes s.hbm pa 8))) (s.gr d)).toNat))) ∧
  (∀ (d base : BitVec 5) (ta : BitVec 1) (scope : BitVec 3) (order : BitVec 2) (off : BitVec 8) (s : State) (a : Nat) (old : Word64),
     Quiet s → ea s base off 8 % 8 = 0 →
     (s.resolve s.key (ea s base off 8) .write = .at_ (.sp a) → Writable s a 8 → s.spPoisoned a 8 = false →
       old = BitVec.ofNat 64 (leNat (s.spBytes a 8)) →
       (Ready s (.cas d base ta scope order off) [base, d, d + 1#5] [d] →
         ∃ t, exec (.cas d base ta scope order off) s = .next t ∧ t.cur.pc = s.cur.pc + 4 ∧ OtherRegs s t d.toNat ∧
           (∃ f ∈ t.cur.fills, f.reg = d.toNat ∧ f.src = .ready ∧ f.v = old) ∧ t.hbm = s.hbm ∧ t.host = s.host ∧
           CasStored s d old s.sp t.sp a) ∧
       (Ready s (.amoAddBatch d base ta scope order off) [base, d] [d] → old.extractLsb' 32 31 = 0#31 →
         ∃ t, exec (.amoAddBatch d base ta scope order off) s = .next t ∧ t.cur.pc = s.cur.pc + 4 ∧ OtherRegs s t d.toNat ∧
           t.hbm = s.hbm ∧ t.host = s.host ∧ BatchAdded t d old s.sp t.sp a)) ∧
     (s.resolve s.key (ea s base off 8) .write = .at_ (.hbm a) → s.cur.hyp = 0 → BuffersEmpty s → s.poisoned a 8 = false →
       old = BitVec.ofNat 64 (leNat (Memory.readBytes s.hbm a 8)) →
       (Ready s (.cas d base ta scope order off) [base, d, d + 1#5] [d] →
         ∃ t, exec (.cas d base ta scope order off) s = .next t ∧ t.cur.pc = s.cur.pc + 4 ∧ OtherRegs s t d.toNat ∧
           (∃ f ∈ t.cur.fills, f.reg = d.toNat ∧ f.src = .ready ∧ f.v = old) ∧ t.sp = s.sp ∧ t.host = s.host ∧
           CasStored s d old s.hbm t.hbm a) ∧
       (Ready s (.amoAddBatch d base ta scope order off) [base, d] [d] →
         (old.extractLsb' 32 31 = 0#31 →
           ∃ t, exec (.amoAddBatch d base ta scope order off) s = .next t ∧ t.cur.pc = s.cur.pc + 4 ∧ OtherRegs s t d.toNat ∧
             t.sp = s.sp ∧ t.host = s.host ∧ BatchAdded t d old s.hbm t.hbm a) ∧
         (old.extractLsb' 32 31 ≠ 0#31 → Handles s → isRel order = false →
           ∃ t, exec (.amoAddBatch d base ta scope order off) s = .next t ∧
             TookTrap s t { cause := 4, faddr := faddr s (ea s base off 8) } s.cur.pc))))

/-- R147, R148, R268: `notify` adds D to the word as a release, and `nwait` completes when the word, unsigned, is at least D, and otherwise
parks with its pc kept: in scratchpad, and in module HBM for a thread of hypothesis 0, where it leaves a waiter entry at the word's home slice while
that holds fewer than 256; a `notify` that brings the word to the threshold of an entry's wait meets the entry. -/
def Obligations.NotificationWords : Prop :=
  (∀ (d base : BitVec 5) (ta : BitVec 1) (scope : BitVec 3) (off : BitVec 8) (s : State) (a : Nat) (old : Nat),
    Quiet s → ea s base off 8 % 8 = 0 → s.spPoisoned a 8 = false → old = leNat (s.spBytes a 8) →
    (Ready s (.notify d base ta scope off) [base, d] [] → s.resolve s.key (ea s base off 8) .write = .at_ (.sp a) → Writable s a 8 →
      ∃ t, exec (.notify d base ta scope off) s = .next t ∧ t.cur = { s.cur with pc := s.cur.pc + 4 } ∧ t.hbm = s.hbm ∧ t.host = s.host ∧
        Stored s.sp t.sp a (leBytes 8 ((old + (s.gr d).toNat) % 2 ^ 64))) ∧
    (Ready s (.nwait d base ta scope off) [base, d] [] → s.resolve s.key (ea s base off 8) .read = .at_ (.sp a) →
      ∃ t, exec (.nwait d base ta scope off) s = .next t ∧ SameMemory s t ∧ (∀ r, t.cur.reg r = s.cur.reg r) ∧
        ((s.gr d).toNat ≤ old → t.cur.pc = s.cur.pc + 4 ∧ t.cur.st = .active) ∧
        (old < (s.gr d).toNat → t.cur.pc = s.cur.pc ∧ t.cur.st = .parkedWait ∧
          t.cur.wait = .nwait (ea s base off 8) (s.gr d) scope.toNat))) ∧
  (∀ (d base : BitVec 5) (ta : BitVec 1) (scope : BitVec 3) (off : BitVec 8) (s : State) (pa new : Nat) (old : Nat) (n : Nat),
    Quiet s → s.ctl.at_.slot < 16 → ea s base off 8 % 8 = 0 → s.cur.hyp = 0 → BuffersEmpty s → s.poisoned pa 8 = false →
    old = leNat (Memory.readBytes s.hbm pa 8) → n = homeSlice pa → new = (old + (s.gr d).toNat) % 2 ^ 64 →
    (Ready s (.notify d base ta scope off) [base, d] [] → s.resolve s.key (ea s base off 8) .write = .at_ (.hbm pa) →
      ∃ t, exec (.notify d base ta scope off) s = .next t ∧ t.cur = { s.cur with pc := s.cur.pc + 4 } ∧ t.sp = s.sp ∧ t.host = s.host ∧
        Stored s.hbm t.hbm pa (leBytes 8 new) ∧
        ∀ e k va th sc, e ∈ (s.slice n).waiters → e.who = .slot k → e.pa = pa → e.met = false → e.seen = old → new ≠ old → th.toNat ≤ new →
          (s.slot k).wait = .nwait va th sc → (s.slot k).hyp = 0 → k ≠ s.key →
          ∃ f ∈ (t.slice n).waiters, f.who = .slot k ∧ f.pa = pa ∧ f.met = true) ∧
    (Ready s (.nwait d base ta scope off) [base, d] [] → s.resolve s.key (ea s base off 8) .read = .at_ (.hbm pa) →
      ∃ t, exec (.nwait d base ta scope off) s = .next t ∧ SameMemory s t ∧ (∀ r, t.cur.reg r = s.cur.reg r) ∧
        ((s.gr d).toNat ≤ old → t.cur.pc = s.cur.pc + 4 ∧ t.cur.st = .active) ∧
        (old < (s.gr d).toNat → t.cur.pc = s.cur.pc ∧ t.cur.st = .parkedWait ∧
          t.cur.wait = .nwait (ea s base off 8) (s.gr d) scope.toNat ∧
          ((s.slice n).waiters.length < 256 → (∀ f ∈ (s.slice n).waiters, f.who ≠ .slot s.key) →
            (t.slice n).waiters = (s.slice n).waiters ++ [{ who := .slot s.key, pa := pa, seen := old }]))))

/-- R243, R242, items 4 to 8: a load, a store, `ldt` or `stt` of a good format, an atomic, `cas`, `notify` or `nwait` whose address is not a
multiple of its width traps ALIGN_FAULT, with the address in TADDR and nothing changed; one of an aligned address in no window traps DATA_FAULT with
reason 1, and one of the global window that the translation refuses DATA_FAULT with its reason; a store, atomic, `cas` or `notify` under a hypothesis
to host memory or another module traps HYP_REMOTE; an atomic of no link sub-op on another module DATA_FAULT with reason 5 and status MALFORMED; a
store, atomic, `cas` or `notify` to a byte of the windows and tables below 0x5000 traps DATA_FAULT, and to one of a tile TILE_GUARD. -/
def Obligations.MemoryFaults : Prop :=
  ∀ (d base : BitVec 5) (ta : BitVec 1) (scope : BitVec 3) (order : BitVec 2) (off : BitVec 8) (s : State),
  ∀ p ∈ memForms s d base ta scope order off, ∀ a : Nat, Ready s p.i (base :: p.srcs) (if p.acc = .read then [d] else []) → Quiet s → Handles s →
    (s.cur.reg d.toNat).st ≠ .pending → (p.typed = true → formatBad (s.gr base) true = false) → a = ea s base off p.n →
    (a % p.n ≠ 0 → ∃ t, exec p.i s = .next t ∧ TookTrap s t (tALIGN_FAULT (faddr s a)) s.cur.pc) ∧
    (a % p.n = 0 →
      (windowOf a = .none → ∃ t, exec p.i s = .next t ∧ TookTrap s t (tDATA_FAULT (BitVec.ofNat 64 a) 1 0) s.cur.pc) ∧
      (∀ r, windowOf a = .global → s.look (clusterOf s.coreNo) s.cur.ctx a p.acc true false = .fault r →
        ∃ t, exec p.i s = .next t ∧ TookTrap s t (tDATA_FAULT (BitVec.ofNat 64 a) r 0) s.cur.pc) ∧
      (p.acc = .write → ∀ g, s.resolve s.key a .write = .at_ g →
        (s.cur.hyp ≠ 0 → (∃ pa, g = .host pa) ∨ (∃ m pa, g = .remote m pa) →
          ∃ t, exec p.i s = .next t ∧ TookTrap s t { cause := 17, faddr := faddr s a } s.cur.pc) ∧
        (s.cur.hyp = 0 → (∃ op ∈ noSubOps, p.i = op d base ta scope order off) → (∃ m pa, g = .remote m pa) →
          ∃ t, exec p.i s = .next t ∧ TookTrap s t (tDATA_FAULT (faddr s a) 5 8) s.cur.pc) ∧
        (∀ x, g = .sp x → x % 2 ^ 22 < 0x5000 → ∃ t, exec p.i s = .next t ∧ TookTrap s t (tDATA_FAULT (faddr s a) 0 0) s.cur.pc) ∧
        (∀ x, g = .sp x → 0x5000 ≤ x % 2 ^ 22 → s.tileOwned x p.n = true →
          ∃ t, exec p.i s = .next t ∧ TookTrap s t { cause := 8, faddr := faddr s a } s.cur.pc)))

/-- R247, R248, R273, R256: `pf`, `fence`, `vjoin`, `nop` and `yield` go on to the next word and change no register and no byte of memory
that the issuing slot's context can see. `vjoin` joins the views of its range (R68); a fence of acquire order at cluster scope or wider
empties the L1 of its core. -/
def Obligations.OrderingInstructions : Prop :=
  (∀ s : State, ∃ t, exec .nop s = .next t ∧ WentTo s t (s.cur.pc + 4)) ∧
  (∀ s : State, ∃ t, exec .yield s = .next t ∧ OnlySlot s t ∧ t.cur.pc = s.cur.pc + 4 ∧ t.cur.regs = s.cur.regs ∧
    t.cur.yieldUntil = s.cycle + 16) ∧
  (∀ (scope : BitVec 3) (order : BitVec 2) (s : State), Quiet s → wellFormed (.fence scope order) = true →
    ∃ t, exec (.fence scope order) s = .next t ∧ t.cur = { s.cur with pc := s.cur.pc + 4 } ∧ SameMemory s t ∧
      (order.getLsbD 0 = true → 2 ≤ scope.toNat → (t.core s.coreNo).l1 = [])) ∧
  (∀ (base : BitVec 5) (ta : BitVec 1) (off : BitVec 8) (s : State) (e : TlbEntry) (pa : Nat), Ready s (.pf base ta off) [base] [] →
    windowOf (ea s base off 32) = .global →
    s.look (clusterOf s.coreNo) s.cur.ctx (ea s base off 32) .read (!s.cur.hnd) false = .ok e pa → e.tgt = 0 →
    s.poisoned (pa / 32 * 32) 32 = false → s.lookupWaits (clusterOf s.coreNo) s.cur.ctx s.cur.hyp (pa / 32 * 32) 32 = false →
    s.ctl.at_.slot < 16 →
    ∃ t, exec (.pf base ta off) s = .next t ∧ WentOn s t ∧ ∃ l ∈ (t.core s.coreNo).l1, l.addr = pa / 32 * 32) ∧
  (∀ (a b : BitVec 5) (ta tb : BitVec 1) (s : State) (o : Nat), Ready s (.vjoin a b ta tb) [a, b] [] → Quiet s →
    windowOf ((s.gr a).toNat % 2 ^ 56) = .scratch o → o % 64 = 0 → (s.gr b).toNat % 64 = 0 → o + (s.gr b).toNat ≤ 2 ^ 22 →
    ∃ t, exec (.vjoin a b ta tb) s = .next t ∧ WentOn s t ∧ (t.core s.coreNo).l1 = [] ∧
      ∀ x, clusterOf s.coreNo * 2 ^ 22 + o ≤ x → x < clusterOf s.coreNo * 2 ^ 22 + o + (s.gr b).toNat →
        t.spByte x = Memory.readByte t.sp x)

/-- R251, R252, R254: `purge` makes d EMPTY; `setmig` sets the migration mode, or traps ILLEGAL for a value above 1; `rfill` posts a
direct write to the core its word names; `mhome` writes the home core word of an address of module HBM.

R255, R114: `spawn` claims a free slot of its core and the lowest free identity of its cluster's share, starts the new thread at A with
g0 to g7 of its own, and returns the identity; with no slot or identity free, or a message waiting, it returns all ones and starts nothing.

R123, R114: `exit` with no fill outstanding frees the slot and releases the thread's identity; with a fill outstanding the slot waits
for it. -/
def Obligations.ThreadInstructions : Prop :=
  ((∀ (d : BitVec 5) (s : State), (s.cur.reg d.toNat).st ≠ .pending →
      ∃ t, exec (.purge d) s = .next t ∧ OnlySlot s t ∧ AtPc s t (s.cur.pc + 4) ∧ OtherRegs s t d.toNat ∧ (t.cur.reg d.toNat).st = .empty) ∧
    (∀ (a : BitVec 5) (ta : BitVec 1) (s : State), Ready s (.setmig a ta) [a] [] →
      ((s.gr a).toNat < 2 → exec (.setmig a ta) s =
        .next (s.setCur { s.cur with pc := s.cur.pc + 4, mig := (s.gr a).getLsbD 0 })) ∧
      (2 ≤ (s.gr a).toNat → Handles s → ∃ t, exec (.setmig a ta) s = .next t ∧ TookTrap s t tILLEGAL s.cur.pc)) ∧
    (∀ (a b : BitVec 5) (ta tb : BitVec 1) (s : State), Ready s (.rfill a b ta tb) [a, b] [] → Quiet s →
      (s.gr a).extractLsb' 37 27 = 0#27 → (s.gr a).extractLsb' 28 4 = 0#4 → s.fenced (((s.gr a).extractLsb' 16 12).toNat / 16) = false →
      ∃ t, exec (.rfill a b ta tb) s = .next t ∧ WentOn s t ∧
        (t.core ((s.gr a).extractLsb' 16 12).toNat).directWrites = (s.core ((s.gr a).extractLsb' 16 12).toNat).directWrites ++
          [{ tid := ((s.gr a).extractLsb' 0 16).toNat, ctx := s.cur.ctx, reg := ((s.gr a).extractLsb' 32 5).toNat, v := s.gr b,
             from_ := .slot s.key s.cur.tid }]) ∧
    (∀ (d a : BitVec 5) (ta : BitVec 1) (s : State) (pa : Nat), Ready s (.mhome d a ta) [a] [d] →
      s.resolve s.key ((s.gr a).toNat % 2 ^ 56) .read = .at_ (.hbm pa) →
      ∃ t, exec (.mhome d a ta) s = .next t ∧ WroteReg s t d (BitVec.ofNat 64
        (homeSlice pa / 512 * 1024 + homeSlice pa % 512 / 8 * 16 + homeSlice pa % 8 * 2 + pa / 128 % 2)))) ∧
  ((∀ (d a : BitVec 5) (ta : BitVec 1) (s : State), Ready s (.spawn d a ta) [a] [d] → lowFull s 8 → Quiet s → (s.gr a).toNat % 4 = 0 →
      (∀ k tid, s.spawnRoom = some (k, tid) → k ≠ s.key →
        ∃ t, exec (.spawn d a ta) s = .next t ∧ WroteAndMore s t d (BitVec.ofNat 64 tid) ∧ (t.slot k).st = .active ∧
          (t.slot k).pc = (s.gr a).extractLsb' 0 56 ∧ (t.slot k).tid = tid ∧ (t.slot k).ctx = s.cur.ctx ∧ (t.slot k).hyp = s.cur.hyp ∧
          (t.slot k).launch = s.cur.launch ∧ tid ∈ (t.ctx s.cur.ctx).tids ∧
          (∀ r, r < 8 → ((t.slot k).reg r).st = .full ∧ ((t.slot k).reg r).v = s.cur.g r) ∧
          (∀ r, 8 ≤ r → ((t.slot k).reg r).st = .empty)) ∧
      (s.spawnRoom = none → ∃ t, exec (.spawn d a ta) s = .next t ∧ WroteReg s t d (BitVec.allOnes 64))) ∧
    (∀ s : State, s.cur.fills = [] →
      ∃ t, exec .exit s = .next t ∧ t.slot s.key = {} ∧ s.cur.tid ∉ (t.ctx s.cur.ctx).tids) ∧
    (∀ s : State, s.cur.fills ≠ [] → ∃ t, exec .exit s = .next t ∧ OnlySlot s t ∧ t.cur.leaving = true ∧ t.cur.fills = s.cur.fills))

/-- R253, R96: `send` puts a message with g0 to g7, the handler and the context and hypothesis of its thread behind those in flight to the
core that its word names, in order behind those of the same thread (R8), and goes on. A fenced core traps ILLEGAL, before any misalignment (assumption 12); a handler address that is not a
multiple of 4 traps ALIGN_FAULT.

R120, R254: `migrate` of a thread with no fill outstanding frees its slot and sends the thread, with its identity, g0 to g7 and the
address of the next instruction, to the core that its word names, or, in mode 1, to the home core of an address of module HBM, or to its own core
for an address of the scratchpad window. A fenced core, and in mode 0 a word with another bit set (that this traps is the model's choice, assumption
21), trap ILLEGAL. In a handler it traps ILLEGAL,
which on the trap core faults the context (R330). -/
def Obligations.SendAndMigrate : Prop :=
  (∀ (a : BitVec 5) (ta : BitVec 1) (s : State) (dst : Nat), (s.cur.reg a.toNat).st = .full → lowFull s 8 → Quiet s →
     dst = ((s.gr a).extractLsb' 52 12).toNat →
     (s.fenced (dst / 16) = false → (s.gr a).toNat % 4 = 0 → s.noRoom dst s.cur.ctx = false →
       ∃ t m, exec (.send a ta) s = .next t ∧ WentOn s t ∧ t.mesh = s.mesh ++ [(dst, m)] ∧ m.kind = .send ∧
         m.pc = ((s.gr a).extractLsb' 0 52).toNat ∧ m.ctx = s.cur.ctx ∧ m.hyp = s.cur.hyp ∧ m.g = g0to7 s ∧ m.src = .thread s.cur.ctx s.cur.tid) ∧
     (s.fenced (dst / 16) = true → Handles s → ∃ t, exec (.send a ta) s = .next t ∧ TookTrap s t tILLEGAL s.cur.pc) ∧
     (s.fenced (dst / 16) = false → (s.gr a).toNat % 4 ≠ 0 → Handles s → ∃ t, exec (.send a ta) s = .next t ∧
       TookTrap s t (tALIGN_FAULT (BitVec.ofNat 64 ((s.gr a).toNat % 2 ^ 52))) s.cur.pc)) ∧
  (∀ (a : BitVec 5) (ta : BitVec 1) (s : State) (dst pa : Nat), (s.cur.reg a.toNat).st = .full → lowFull s 8 → Quiet s →
     s.ctl.at_.slot < 16 →
     (s.cur.mig = false ∧ dst = (s.gr a).toNat ∧ dst < 4096 ∨
      s.cur.mig = true ∧ s.resolve s.key ((s.gr a).toNat % 2 ^ 56) .read = .at_ (.hbm pa) ∧
        dst = homeSlice pa / 512 * 1024 + homeSlice pa % 512 / 8 * 16 + homeSlice pa % 8 * 2 + pa / 128 % 2 ∨
      s.cur.mig = true ∧ windowOf ((s.gr a).toNat % 2 ^ 56) = .scratch pa ∧ dst = s.coreNo) →
     (s.cur.hnd = false → s.fenced (dst / 16) = false → s.noRoom dst s.cur.ctx = false →
       ∃ t m, exec (.migrate a ta) s = .next t ∧ t.slot s.key = {} ∧ t.mesh = s.mesh ++ [(dst, m)] ∧ m.kind = .migrate ∧
         m.pc = (s.cur.pc + 4).toNat ∧ m.tid = s.cur.tid ∧ m.ctx = s.cur.ctx ∧ m.hyp = s.cur.hyp ∧ m.g = g0to7 s ∧ t.hbm = s.hbm) ∧
     (s.cur.hnd = true → s.coreNo = (s.ctx s.cur.ctx).trapc → (s.ctx s.cur.ctx).st = .running →
       exec (.migrate a ta) s = .next (s.setCtx s.cur.ctx { s.ctx s.cur.ctx with st := .faulted, live := [] })) ∧
     (s.fenced (dst / 16) = true → Handles s → ∃ t, exec (.migrate a ta) s = .next t ∧ TookTrap s t tILLEGAL s.cur.pc)) ∧
  (∀ (a : BitVec 5) (ta : BitVec 1) (s : State), (s.cur.reg a.toNat).st = .full → lowFull s 8 → s.cur.mig = false → 4096 ≤ (s.gr a).toNat →
     Handles s → ∃ t, exec (.migrate a ta) s = .next t ∧ TookTrap s t tILLEGAL s.cur.pc)

/-- R257, R258: `dqpush` puts a task record with g0 to g6, the hypothesis and A on top of its core's deque and returns 1, or returns 0 when
the deque is full; `dqpop` takes the top task of its own hypothesis: g0 to g6, and the address with bit 0 set in d, or returns 0 where the
deque is empty or its top record is a range or a task of another hypothesis. A thread whose
launch does not own the core's window traps CONST_MISS at both. -/
def Obligations.Tasks : Prop :=
  ∀ (d a : BitVec 5) (ta : BitVec 1) (s : State),
    (Ready s (.dqpush d a ta) [a] [d] → lowFull s 7 → Quiet s → (s.gr a).toNat % 4 = 0 →
      (s.ownsWindow = true → (s.core s.coreNo).deque.length < 128 →
        ∃ t r, exec (.dqpush d a ta) s = .next t ∧ WroteAndMore s t d 1 ∧
          (t.core s.coreNo).deque = r :: (s.core s.coreNo).deque ∧ some r.launch = s.cur.launch ∧
          r.task = .task s.cur.hyp ((s.gr a).extractLsb' 0 56).toNat
            [s.cur.g 0, s.cur.g 1, s.cur.g 2, s.cur.g 3, s.cur.g 4, s.cur.g 5, s.cur.g 6]) ∧
      (s.ownsWindow = true → 128 ≤ (s.core s.coreNo).deque.length → ∃ t, exec (.dqpush d a ta) s = .next t ∧ WroteReg s t d 0) ∧
      (s.ownsWindow = false → Handles s → ∃ t, exec (.dqpush d a ta) s = .next t ∧ TookTrap s t tCONST_MISS s.cur.pc)) ∧
    (wellFormed (.dqpop d) = true → (s.cur.reg d.toNat).st ≠ .pending → (∀ r, r < 7 → (s.cur.reg r).st ≠ .pending) →
      (s.ownsWindow = false → Handles s → ∃ t, exec (.dqpop d) s = .next t ∧ TookTrap s t tCONST_MISS s.cur.pc) ∧
      (s.ownsWindow = true → ∀ (l pc : Nat) (tc : Bool) (pay : List Word64) (rest : List TaskRec), pay.length = 7 →
        (s.core s.coreNo).deque = ⟨l, .task s.cur.hyp pc pay, tc⟩ :: rest →
        ∃ t, exec (.dqpop d) s = .next t ∧ (t.core s.coreNo).deque = rest ∧ t.cur.pc = s.cur.pc + 4 ∧
          (t.cur.reg d.toNat).v = BitVec.ofNat 64 (pc + 1) ∧
          (∀ r, r < 7 → r ≠ d.toNat → (t.cur.reg r).st = .full ∧ (t.cur.reg r).v = pay.getD r 0) ∧ SameMemory s t) ∧
      (s.ownsWindow = true → (s.core s.coreNo).deque = [] → ∃ t, exec (.dqpop d) s = .next t ∧ WroteReg s t d 0) ∧
      (∀ l f n tc rest, s.ownsWindow = true → (s.core s.coreNo).deque = ⟨l, .range f n, tc⟩ :: rest →
        ∃ t, exec (.dqpop d) s = .next t ∧ WroteReg s t d 0) ∧
      (∀ l h pc pay tc rest, s.ownsWindow = true → (s.core s.coreNo).deque = ⟨l, .task h pc pay, tc⟩ :: rest → h ≠ s.cur.hyp →
        ∃ t, exec (.dqpop d) s = .next t ∧ WroteReg s t d 0))

/-- R92, R259: `launch` posts the record address in A to launch queue B of its context, behind those queued; where the queue is full, or a post
waits there, the slot parks behind it. A queue above 15, or a thread
under a hypothesis, traps ILLEGAL, before any misalignment (assumption 12); an address that is no multiple of 64, or above 2^56, traps
ALIGN_FAULT. -/
def Obligations.LaunchInstruction : Prop :=
  ∀ (a b : BitVec 5) (ta tb : BitVec 1) (s : State), Ready s (.launch a b ta tb) [a, b] [] → Quiet s →
    ((s.gr b).toNat ≤ 15 → s.cur.hyp = 0 → (s.gr a).toNat % 64 = 0 → (s.gr a).toNat < 2 ^ 56 →
      (Map.get (s.ctx s.cur.ctx).queues (s.gr b).toNat {}).entries.length < 64 →
      (Map.get (s.ctx s.cur.ctx).queues (s.gr b).toNat {}).parked = [] →
      ∃ t e, exec (.launch a b ta tb) s = .next t ∧ WentOn s t ∧ e.rec_ = s.gr a ∧
        (Map.get (t.ctx s.cur.ctx).queues (s.gr b).toNat {}).entries =
          (Map.get (s.ctx s.cur.ctx).queues (s.gr b).toNat {}).entries ++ [e]) ∧
    ((s.gr b).toNat ≤ 15 → s.cur.hyp = 0 → (s.gr a).toNat % 64 = 0 → (s.gr a).toNat < 2 ^ 56 →
      64 ≤ (Map.get (s.ctx s.cur.ctx).queues (s.gr b).toNat {}).entries.length ∨
        (Map.get (s.ctx s.cur.ctx).queues (s.gr b).toNat {}).parked ≠ [] →
      ∃ t, exec (.launch a b ta tb) s = .next t ∧ SameMemory s t ∧
        t.cur = { s.cur with st := .parkedWait, awaiting := [], wait := .launch (s.gr b).toNat, parkedAt := s.cycle } ∧
        Map.get (t.ctx s.cur.ctx).queues (s.gr b).toNat {} = { Map.get (s.ctx s.cur.ctx).queues (s.gr b).toNat {} with
          parked := (Map.get (s.ctx s.cur.ctx).queues (s.gr b).toNat {}).parked ++ [(s.key, s.gr a)] }) ∧
    ((s.gr b).toNat ≤ 15 → s.cur.hyp = 0 → (s.gr a).toNat % 64 ≠ 0 ∨ 2 ^ 56 ≤ (s.gr a).toNat → Handles s →
      ∃ t, exec (.launch a b ta tb) s = .next t ∧ TookTrap s t (tALIGN_FAULT (s.gr a)) s.cur.pc) ∧
    (15 < (s.gr b).toNat ∨ s.cur.hyp ≠ 0 → Handles s → ∃ t, exec (.launch a b ta tb) s = .next t ∧ TookTrap s t tILLEGAL s.cur.pc)

/-- R126, R127, R260: `topen` of a legal shape, read here from scratchpad, claims the lowest free index of its cluster's tile table: the
tile is OPEN with the shape, Lathe, fill target and chime that its operands give, its rows not valid, its footprint zero; d is its handle. -/
def Obligations.OpenTile : Prop :=
  ∀ (d a b : BitVec 5) (ta tb : BitVec 1) (s : State) (x i w0 w1 : Nat), Ready s (.topen d a b ta tb) [a, b] [d] → Quiet s →
    (s.gr a).toNat % 16 = 0 → s.resolve s.key ((s.gr a).toNat % 2 ^ 56) .read = .at_ (.sp x) → s.spPoisoned x 16 = false →
    leNat (s.spBytes x 16) = w1 * 2 ^ 64 + w0 → w0 < 2 ^ 64 →
    s.openTrap (s.coreNo / 16) s.cur.ctx (s.gr b).toNat w0 w1 = none → s.freeIndex (s.coreNo / 16) = some i →
    ∃ t, exec (.topen d a b ta tb) s = .next t ∧ t.cur.pc = s.cur.pc + 4 ∧ OtherRegs s t d.toNat ∧ (t.cur.reg d.toNat).st = .full ∧
      (t.cur.reg d.toNat).v = BitVec.ofNat 64 (handleOf (s.coreNo / 16) i (s.tile (tileKey (s.coreNo / 16) i)).gen) ∧
      (t.tile (tileKey (s.coreNo / 16) i)).st = .open_ ∧ (t.tile (tileKey (s.coreNo / 16) i)).ctx = s.cur.ctx ∧
      (t.tile (tileKey (s.coreNo / 16) i)).shape = parseShape w0 w1 ∧
      (t.tile (tileKey (s.coreNo / 16) i)).lathe = ((s.gr b).extractLsb' 25 2).toNat ∧
      (t.tile (tileKey (s.coreNo / 16) i)).target = ((s.gr b).extractLsb' 27 8).toNat ∧
      (t.tile (tileKey (s.coreNo / 16) i)).chimeAt =
        (if (s.gr b).extractLsb' 0 25 = 0#25 then none else some (s.cycle + ((s.gr b).extractLsb' 0 25).toNat)) ∧
      (t.tile (tileKey (s.coreNo / 16) i)).valid = 0 ∧ t.hbm = s.hbm ∧ t.host = s.host ∧
      (∀ y, Memory.readByte t.sp y = if s.coreNo / 16 * 2 ^ 22 + (parseShape w0 w1).base ≤ y ∧
          y < s.coreNo / 16 * 2 ^ 22 + (parseShape w0 w1).stop then 0 else Memory.readByte s.sp y)

/-- R131, R132, R261, Table 9-2: a `tst` or `tsr` into an open tile of its cluster writes D's low bytes at its offset in the row; `tsr` makes
the row valid. A refused write traps by its code (TILE_STALE, TILE_SHAPE, TILE_CLOSED), with the code as its status, and stores nothing; `tsq`
returns the code in d. -/
def Obligations.TileStores : Prop :=
  (∀ (d a b : BitVec 5) (ta tb : BitVec 1) (s : State) (k : Nat), Quiet s → (s.gr a).toNat < 2 ^ 32 → posBad (s.gr b).toNat false = false →
    posOff (s.gr b) % posBytes (s.gr b) = 0 → ownTile s a k →
    (Ready s (.tst d a b ta tb) [a, b, d] [] → PortTakes s k (posRow (s.gr b)) (posOff (s.gr b)) (posBytes (s.gr b)) →
      ∃ t, exec (.tst d a b ta tb) s = .next t ∧ t.cur = { s.cur with pc := s.cur.pc + 4 } ∧ OnlyTile s t k ∧
        t.tile k = { s.tile k with wroteAt := some s.cycle } ∧ t.hbm = s.hbm ∧ t.host = s.host ∧
          Stored s.sp t.sp (rowAddr s k (posRow (s.gr b)) (posOff (s.gr b))) (leBytes (posBytes (s.gr b)) (s.gr d).toNat)) ∧
    (Ready s (.tsr d a b ta tb) [a, b, d] [] → PortTakes s k (posRow (s.gr b)) (posOff (s.gr b)) (posBytes (s.gr b)) →
      (s.tile k).target = 0 →
      ∃ t, exec (.tsr d a b ta tb) s = .next t ∧ t.cur = { s.cur with pc := s.cur.pc + 4 } ∧ t.hbm = s.hbm ∧ t.host = s.host ∧
        Stored s.sp t.sp (rowAddr s k (posRow (s.gr b)) (posOff (s.gr b))) (leBytes (posBytes (s.gr b)) (s.gr d).toNat) ∧
        OnlyTile s t k ∧ t.tile k = { s.tile k with valid := (s.tile k).valid ||| BitVec.ofNat 128 (2 ^ posRow (s.gr b)), vcnt := (s.tile k).vcnt + 1, wroteAt := some s.cycle }) ∧
    (∀ code cause, (code, cause) ∈ ([(2, 10), (3, 12), (4, 12)] : List (Nat × Nat)) → Handles s →
      PortRefuses s k (posRow (s.gr b)) (posOff (s.gr b)) (posBytes (s.gr b)) code →
      (Ready s (.tst d a b ta tb) [a, b, d] [] →
        ∃ t, exec (.tst d a b ta tb) s = .next t ∧ TookTrap s t { cause := cause, status := code } s.cur.pc) ∧
      (Ready s (.tsr d a b ta tb) [a, b, d] [] →
        ∃ t, exec (.tsr d a b ta tb) s = .next t ∧ TookTrap s t { cause := cause, status := code } s.cur.pc)) ∧
    (Ready s (.tsq d a b ta tb) [a, b, d] [d] → PortTakes s k (posRow (s.gr b)) (posOff (s.gr b)) (posBytes (s.gr b)) →
      (s.gr b).getLsbD 26 = false →
      ∃ t, exec (.tsq d a b ta tb) s = .next t ∧ t.cur.pc = s.cur.pc + 4 ∧ (∃ f ∈ t.cur.fills, f.reg = d.toNat ∧ f.src = .ready ∧ f.v = 0) ∧
        Stored s.sp t.sp (rowAddr s k (posRow (s.gr b)) (posOff (s.gr b))) (leBytes (posBytes (s.gr b)) (s.gr d).toNat)) ∧
    (∀ code, PortRefuses s k (posRow (s.gr b)) (posOff (s.gr b)) (posBytes (s.gr b)) code → Ready s (.tsq d a b ta tb) [a, b, d] [d] →
      ∃ t, exec (.tsq d a b ta tb) s = .next t ∧
        (∃ f ∈ t.cur.fills, f.reg = d.toNat ∧ f.src = .ready ∧ f.v = BitVec.ofNat 64 code) ∧ t.sp = s.sp)) ∧
  (∀ (d a b : BitVec 5) (ta tb : BitVec 1) (s : State), Quiet s → (s.gr a).toNat < 2 ^ 32 → posBad (s.gr b).toNat false = false →
    posOff (s.gr b) % posBytes (s.gr b) = 0 → s.tileFor (s.coreNo / 16) s.cur.ctx (s.gr a).toNat = none →
    (Ready s (.tst d a b ta tb) [a, b, d] [] → Handles s →
      ∃ t, exec (.tst d a b ta tb) s = .next t ∧ TookTrap s t { cause := 9, status := 1 } s.cur.pc) ∧
    (Ready s (.tsr d a b ta tb) [a, b, d] [] → Handles s →
      ∃ t, exec (.tsr d a b ta tb) s = .next t ∧ TookTrap s t { cause := 9, status := 1 } s.cur.pc) ∧
    (Ready s (.tsq d a b ta tb) [a, b, d] [d] →
      ∃ t, exec (.tsq d a b ta tb) s = .next t ∧ (∃ f ∈ t.cur.fills, f.reg = d.toNat ∧ f.src = .ready ∧ f.v = 1) ∧ t.sp = s.sp))

/-- R133, R94, R262, R129: `seal` of an open tile whose Lathe is bound and whose queue has room posts its handle and leaves it QUEUED, with its
status word in d; a `seal` of a sealed tile changes nothing else and sets bit 59 of that word;
`tret` of a consumed tile that nothing reads frees it and advances its generation, and of a queued one traps TILE_STATE; `tinfo` returns
the status word or the valid bits. -/
def Obligations.TileLife : Prop :=
  ∀ (d a b : BitVec 5) (ta tb : BitVec 1) (s : State) (k : Nat), Quiet s → ownTile s a k →
    (Ready s (.seal d a ta) [a] [d] → (s.tile k).st = .open_ → (s.tile k).postAfter ≤ s.cycle → (s.tile k).wroteAt ≠ some s.cycle →
      s.boundIn (s.latheOf k) s.cur.ctx = true →
      (s.lathe (s.latheOf k)).hq.length < 64 → (s.lathe (s.latheOf k)).hqWait = [] →
      ∃ t e, exec (.seal d a ta) s = .next t ∧ t.cur.pc = s.cur.pc + 4 ∧ (t.cur.reg d.toNat).st = .full ∧
        (t.cur.reg d.toNat).v = BitVec.ofNat 64 (sealedWord { s.tile k with chime := false } 3 false) ∧ OtherRegs s t d.toNat ∧
        SameMemory s t ∧ (t.tile k).st = .queued ∧ (t.tile k).chimeAt = none ∧
        (t.lathe (s.latheOf k)).hq = (s.lathe (s.latheOf k)).hq ++ [e] ∧ e.eos = false ∧ e.chime = false ∧ e.vcnt = (s.tile k).vcnt ∧
        e.handle = BitVec.ofNat 32 (handleOf (k / 1024) (k % 1024) (s.tile k).gen)) ∧
    (∀ st code, (st, code) ∈ ([(.held, 2), (.queued, 3), (.consumed, 4)] : List (TileSt × Nat)) → Ready s (.seal d a ta) [a] [d] →
      (s.tile k).st = st → (s.tile k).wroteAt ≠ some s.cycle → (s.tile k).chimeAt = none → (s.tile k).chimeLeft = none →
      ∃ t, exec (.seal d a ta) s = .next t ∧ WroteReg s t d (BitVec.ofNat 64 (sealedWord (s.tile k) code true))) ∧
    (Ready s (.tret a ta) [a] [] → (s.tile k).st = .consumed → s.tileRead k = false → (s.tile k).returnLate = false →
      ∃ t, exec (.tret a ta) s = .next t ∧ WentOn s t ∧ (t.tile k).st = .free ∧ (t.tile k).gen = ((s.tile k).gen + 1) % 64) ∧
    (Ready s (.tret a ta) [a] [] → (s.tile k).st = .queued → Handles s →
      ∃ t, exec (.tret a ta) s = .next t ∧ TookTrap s t { cause := 11 } s.cur.pc) ∧
    (Ready s (.tinfo d a b ta tb) [a, b] [d] →
      (s.gr b = 0 → ∃ t, exec (.tinfo d a b ta tb) s = .next t ∧ WroteReg s t d (BitVec.ofNat 64 (s.tileStatus k false))) ∧
      (s.gr b = 1 → ∃ t, exec (.tinfo d a b ta tb) s = .next t ∧ WroteReg s t d ((s.tile k).valid.extractLsb' 0 64)) ∧
      (s.gr b = 2 → ∃ t, exec (.tinfo d a b ta tb) s = .next t ∧ WroteReg s t d ((s.tile k).valid.extractLsb' 64 64)))

/-- R95, R263: `qpost` of a consumed tile and `qeos` write an entry at the end of a handle queue that is open to them; the tile becomes
QUEUED. A Lathe number above 3 traps ILLEGAL. -/
def Obligations.QueuePosts : Prop :=
  ∀ (a b : BitVec 5) (ta tb : BitVec 1) (s : State) (l k : Nat), Quiet s → l = 4 * (s.coreNo / 16) + (s.gr a).toNat →
    ((s.gr a).toNat < 4 → QueueOpen s l →
      (Ready s (.qpost a b ta tb) [a, b] [] → ownTile s b k → (s.tile k).st = .consumed →
        ∃ t e, exec (.qpost a b ta tb) s = .next t ∧ WentOn s t ∧ (t.tile k).st = .queued ∧
          (t.lathe l).hq = (s.lathe l).hq ++ [e] ∧ e.eos = false ∧ e.handle = BitVec.ofNat 32 (s.handleAt k)) ∧
      (Ready s (.qeos a ta) [a] [] →
        ∃ t, exec (.qeos a ta) s = .next t ∧ WentOn s t ∧ (t.lathe l).hq = (s.lathe l).hq ++ [{ eos := true }])) ∧
    (4 ≤ (s.gr a).toNat → Handles s →
      (Ready s (.qpost a b ta tb) [a, b] [] → ∃ t, exec (.qpost a b ta tb) s = .next t ∧ TookTrap s t tILLEGAL s.cur.pc) ∧
      (Ready s (.qeos a ta) [a] [] → ∃ t, exec (.qeos a ta) s = .next t ∧ TookTrap s t tILLEGAL s.cur.pc))

/-- R141 to R144: the first arrival at a barrier that is not in use makes it FILLING with the word's count and returns the phase; an arrival
of another context finds it busy; the N-th completes the phase, which advances modulo 2^16. `bar.wait` goes on when the phase is not its token's, and
parks while it is. `bar.red` of one arrival returns its own value; of more, it parks until the last, which
completes the phase: here of two sums, of both, each slot goes on with the sum in its d. -/
def Obligations.Barriers : Prop :=
  ∀ (d a b : BitVec 5) (ta tb : BitVec 1) (s : State) (w : Nat) (br : Barrier), Quiet s → w = (s.gr a).toNat → barBad w = false →
    br = s.barrier s.coreNo w → s.cur.st = .active →
    (Ready s (.barArrive d a ta) [a] [d] → barOp w = 0 →
      (br.owner = none → 1 < barCount w →
        ∃ t, exec (.barArrive d a ta) s = .next t ∧ WroteAndMore s t d (BitVec.ofNat 64 br.phase) ∧
          (t.barrier s.coreNo w).owner = some s.cur.ctx ∧ (t.barrier s.coreNo w).arrivals = 1 ∧ (t.barrier s.coreNo w).phase = br.phase) ∧
      (br.owner.isSome = true → br.owner ≠ some s.cur.ctx →
        ∃ t, exec (.barArrive d a ta) s = .next t ∧ WroteReg s t d (BitVec.ofNat 64 (2 ^ 63 + br.phase))) ∧
      (br.owner = some s.cur.ctx → br.count = barCount w → br.op = 0 → br.km1 = barKm1 w → br.layer = barLayer w →
        br.arrivals + 1 = barCount w →
        ∃ t, exec (.barArrive d a ta) s = .next t ∧ (t.cur.reg d.toNat).v = BitVec.ofNat 64 br.phase ∧ t.cur.pc = s.cur.pc + 4 ∧
          (t.barrier s.coreNo w).owner = none ∧ (t.barrier s.coreNo w).phase = (br.phase + 1) % 2 ^ 16 ∧ SameMemory s t)) ∧
    (Ready s (.barWait a b ta tb) [a, b] [] → (s.gr b).getLsbD 63 = false →
      ((s.gr b).toNat % 2 ^ 16 ≠ br.phase → ∃ t, exec (.barWait a b ta tb) s = .next t ∧ WentOn s t) ∧
      ((s.gr b).toNat % 2 ^ 16 = br.phase → ∃ t, exec (.barWait a b ta tb) s = .next t ∧ OnlySlot s t ∧
        t.cur = { s.cur with st := .parkedWait, awaiting := [], wait := .bar (s.gr a) (s.gr b), parkedAt := s.cycle })) ∧
    (Ready s (.barRed d a b ta tb) [a, b] [d] → barOp w = 1 → br.owner = none →
      (barCount w = 1 → ∃ t, exec (.barRed d a b ta tb) s = .next t ∧ t.cur.pc = s.cur.pc + 4 ∧ (t.cur.reg d.toNat).st = .full ∧
        (t.cur.reg d.toNat).v = s.gr b ∧ t.cur.barst = false ∧ SameMemory s t) ∧
      (1 < barCount w → ∃ t, exec (.barRed d a b ta tb) s = .next t ∧ t.cur.pc = s.cur.pc ∧ t.cur.st = .parkedWait ∧
        t.cur.wait = .barRed (s.gr a) br.phase d.toNat 0 (s.cur.depOf [a.toNat, b.toNat]) ∧
          (t.barrier s.coreNo w).contribs = [(s.cur.tid, s.key, s.gr b)] ∧ SameMemory s t)) ∧
    (∀ k d' dep v, Ready s (.barRed d a b ta tb) [a, b] [d] → barOp w = 1 → barCount w = 2 → br.owner = some s.cur.ctx → br.count = 2 → br.op = 1 →
      br.km1 = barKm1 w → br.layer = barLayer w → br.arrivals = 1 → br.contribs = [((s.slot k).tid, k, v)] → br.phase < 2 ^ 16 →
      k ≠ s.key → k / 16 = s.coreNo → (s.slot k).st = .parkedWait → (s.slot k).wait = .barRed (s.gr a) br.phase d' 0 dep →
      ∃ t, exec (.barRed d a b ta tb) s = .next t ∧ t.cur.pc = s.cur.pc + 4 ∧ (t.cur.reg d.toNat).st = .full ∧
        (t.cur.reg d.toNat).v = v + s.gr b ∧ (t.slot k).st = .active ∧ (t.slot k).pc = (s.slot k).pc + 4 ∧
        ((t.slot k).reg d').st = .full ∧ ((t.slot k).reg d').v = v + s.gr b ∧ (∀ r, r ≠ d' → (t.slot k).reg r = (s.slot k).reg r) ∧
        (t.barrier s.coreNo w).owner = none ∧ (t.barrier s.coreNo w).phase = (br.phase + 1) % 2 ^ 16 ∧ SameMemory s t)

/-- R152 to R154: `hnew`, `hconf` and `href` queue their requests at the context's hypothesis unit: `hnew` with d PENDING, the resolves with
the slot parked, its pc kept. `hset` moves the thread to a LIVE id under its own; a LIVE id that is not under its own traps ILLEGAL, and an id that is
not LIVE traps HYP_STATE (where it is no descendant either, that HYP_STATE goes first is the model's choice, assumption 21). `hconf` and `href` under
a hypothesis, and `href` of 0, trap ILLEGAL. -/
def Obligations.HypothesisInstructions : Prop :=
  ∀ (d a : BitVec 5) (ta : BitVec 1) (s : State) (c : Ctx), c = s.ctx s.cur.ctx → (s.gr a).toNat < 256 →
    (Ready s (.hnew d a ta) [a] [d] →
      ∃ t n, exec (.hnew d a ta) s = .next t ∧ (t.ctx s.cur.ctx).unitQ = c.unitQ ++ [.hnew s.key n (s.gr a).toNat] ∧
        t.cur.pc = s.cur.pc + 4 ∧ (t.cur.reg d.toNat).st = .pending ∧ (∃ f ∈ t.cur.fills, f.reg = d.toNat ∧ f.src = .hypUnit n) ∧
        OtherRegs s t d.toNat ∧ SameMemory s t) ∧
    (Ready s (.hset a ta) [a] [] →
      ((c.hyp (s.gr a).toNat).st = .live → c.isUnder (s.gr a).toNat s.cur.hyp = true →
        exec (.hset a ta) s = .next (s.setCur { s.cur with pc := s.cur.pc + 4, hyp := (s.gr a).toNat })) ∧
      ((c.hyp (s.gr a).toNat).st = .live → c.isUnder (s.gr a).toNat s.cur.hyp = false → Handles s →
        ∃ t, exec (.hset a ta) s = .next t ∧ TookTrap s t tILLEGAL s.cur.pc) ∧
      ((c.hyp (s.gr a).toNat).st ≠ .live → Handles s → ∃ t, exec (.hset a ta) s = .next t ∧ TookTrap s t { cause := 16 } s.cur.pc)) ∧
    (s.cur.hyp ≠ 0 → Quiet s → Handles s →
      (Ready s (.hconf a ta) [a] [] → ∃ t, exec (.hconf a ta) s = .next t ∧ TookTrap s t tILLEGAL s.cur.pc) ∧
      (Ready s (.href a ta) [a] [] → ∃ t, exec (.href a ta) s = .next t ∧ TookTrap s t tILLEGAL s.cur.pc)) ∧
    (s.gr a = 0 → Quiet s → Handles s → Ready s (.href a ta) [a] [] → ∃ t, exec (.href a ta) s = .next t ∧ TookTrap s t tILLEGAL s.cur.pc) ∧
    (s.cur.hyp = 0 → Quiet s →
      (Ready s (.hconf a ta) [a] [] →
        ∃ t, exec (.hconf a ta) s = .next t ∧ (t.ctx s.cur.ctx).unitQ = c.unitQ ++ [.hconf s.key (s.gr a).toNat] ∧
          t.cur = { s.cur with st := .parkedWait, awaiting := [], wait := .resolve (s.gr a).toNat true, parkedAt := s.cycle } ∧ SameMemory s t) ∧
      (Ready s (.href a ta) [a] [] → s.gr a ≠ 0 →
        ∃ t, exec (.href a ta) s = .next t ∧ (t.ctx s.cur.ctx).unitQ = c.unitQ ++ [.href s.key (s.gr a).toNat] ∧
          t.cur = { s.cur with st := .parkedWait, awaiting := [], wait := .resolve (s.gr a).toNat false, parkedAt := s.cycle } ∧
          SameMemory s t))

/-- R181 to R186: `hashb` folds the 16 tokens of a block, here in scratchpad, into d by rotation by 13 and addition; `gwalk` of a position
inside the node it is given returns that node's token address; beyond it, that of the child whose first token is the sequence's next one, or status
1 without a child; a position of 2^32 or more returns status 1. `pfxl` without a prefix table
returns 0; with a table in module HBM, of a first block that no entry holds, it returns 0, and of one block that entry i holds, whose stripes lie
in one
page, it pins that page and returns 1 and i; a block count of 0 or above 64 traps ILLEGAL, before any misalignment (assumption 12). No memory
changes. That the bytes read are those at issue is the model's choice (assumption 7); the key of a pin is read from several rules
(assumption 38), and that a supervisor page may be pinned is, too (assumption 39). -/
def Obligations.CacheInstructions : Prop :=
  (∀ (d a : BitVec 5) (ta : BitVec 1) (s : State) (x : Nat), Ready s (.hashb d a ta) [a, d] [d] → Quiet s →
    (s.gr a).toNat % 4 = 0 → PlainScratch s ((s.gr a).toNat % 2 ^ 56) 64 x →
    ∃ t, exec (.hashb d a ta) s = .next t ∧ SameMemory s t ∧
      FillsReg s t d ((List.range 16).foldl (fun h i => h.rotateLeft 13 + tokenAt s x i) (s.gr d))) ∧
  (∀ (d a b : BitVec 5) (ta tb : BitVec 1) (s : State), Ready s (.gwalk d a b ta tb) [a, b, d] [d] → Quiet s → (s.gr b).toNat % 4 = 0 →
    (2 ^ 32 ≤ (s.gr d).toNat → ∃ t, exec (.gwalk d a b ta tb) s = .next t ∧ FillsReg s t d (BitVec.ofNat 64 (2 ^ 56)) ∧ SameMemory s t) ∧
    (∀ x n, PlainScratch s ((s.gr a).toNat % 2 ^ 56) 64 x → n = leNat (Memory.readBytes s.sp x 64) → nodeBad n = false →
      nodeStart n ≤ (s.gr d).toNat → (s.gr d).toNat < nodeStart n + nodeLen n → (s.gr d).toNat < 2 ^ 32 →
      ∃ t, exec (.gwalk d a b ta tb) s = .next t ∧ SameMemory s t ∧
        FillsReg s t d (BitVec.ofNat 64 (nodeResult n ((s.gr d).toNat - nodeStart n : Nat)))) ∧
    (∀ x n next y, PlainScratch s ((s.gr a).toNat % 2 ^ 56) 64 x → n = leNat (Memory.readBytes s.sp x 64) → nodeBad n = false →
      next = nodeStart n + nodeLen n → next ≤ (s.gr d).toNat → (s.gr d).toNat < 2 ^ 32 →
      PlainScratch s (((s.gr b).toNat % 2 ^ 56 + 4 * next) % 2 ^ 56) 4 y →
      (nodeWord n 4 = 0 → ∃ t, exec (.gwalk d a b ta tb) s = .next t ∧ SameMemory s t ∧ FillsReg s t d (BitVec.ofNat 64 (2 ^ 56))) ∧
      (∀ z m, nodeWord n 4 ≠ 0 → PlainScratch s (nodeWord n 4 % 2 ^ 56) 64 z → m = leNat (Memory.readBytes s.sp z 64) →
        bitsOf (nodeWord m 6) 31 0 = leNat (Memory.readBytes s.sp y 4) → nodeBad m = false → nodeStart m = next →
        (s.gr d).toNat < next + nodeLen m →
        ∃ t, exec (.gwalk d a b ta tb) s = .next t ∧ SameMemory s t ∧
          FillsReg s t d (BitVec.ofNat 64 (nodeResult m ((s.gr d).toNat - next : Nat)))))) ∧
  (∀ (d a : BitVec 5) (ta : BitVec 1) (s : State), Ready s (.pfxl d a ta) [a, d] [d] → Quiet s →
    (0 < (s.gr d).toNat → (s.gr d).toNat ≤ 64 → (s.gr a).toNat % 4 = 0 → (s.ctx s.cur.ctx).pfxb.toNat % 2 ^ 56 = 0 → s.cur.pfx = none →
      ∃ t, exec (.pfxl d a ta) s = .next t ∧ FillsReg s t d 0 ∧ SameMemory s t) ∧
    ((s.gr d).toNat = 0 ∨ 64 < (s.gr d).toNat → Handles s → ∃ t, exec (.pfxl d a ta) s = .next t ∧ TookTrap s t tILLEGAL s.cur.pc) ∧
    (∀ x pa toks, (s.gr a).toNat % 4 = 0 → PlainScratch s ((s.gr a).toNat % 2 ^ 56) 64 x → toks = leNat (Memory.readBytes s.sp x 64) →
      s.cur.pfx = none → s.cur.hyp = 0 → (s.core s.coreNo).l1 = [] → PrefixTableAt s pa →
      (0 < (s.gr d).toNat → (s.gr d).toNat ≤ 64 → (∀ i, i < 64 → ¬ EntryHashes s pa i toks) →
        ∃ t, exec (.pfxl d a ta) s = .next t ∧ FillsReg s t d 0 ∧ SameMemory s t) ∧
      (∀ i y lo lvl e0 e, s.gr d = 1 → i < 64 → EntryHashes s pa i toks → (∀ j, j < i → ¬ EntryHashes s pa j toks) →
        PlainScratch s (bitsOf (pfxWord (prefixEntry s pa i) 1) 55 0) 64 y → leNat (Memory.readBytes s.sp y 64) = toks →
        lo = bitsOf (pfxWord (prefixEntry s pa i) 3) 55 0 / 256 * 256 → windowOf lo = .global → s.walk s.cur.ctx lo = .leaf lvl e0 e →
        lo / 2 ^ pageLog lvl = (lo + 4096 / 2 ^ bitsOf (pfxWord (prefixEntry s pa i) 2) 34 32 - 1) / 2 ^ pageLog lvl →
        s.walkBusy (s.coreNo / 1024) s.cur.ctx lo = false → (∀ p ∈ s.ctxs, p.2.pages = []) →
        Map.get (s.ctx s.cur.ctx).pins (pinKey lvl lo) 0 < 65535 → (s.ctx s.cur.ctx).pins.length < 4096 →
        ∃ t, exec (.pfxl d a ta) s = .next t ∧ FillsReg s t d (BitVec.ofNat 64 (1 + 256 * i)) ∧ SameMemory s t ∧
          Map.get (t.ctx s.cur.ctx).pins (pinKey lvl lo) 0 = Map.get (s.ctx s.cur.ctx).pins (pinKey lvl lo) 0 + 1)))

/-- R74, R275: `ckpt` with an empty live set, here in scratchpad, and no transfer or direct write in progress records the checkpoint: the
context is CHECKPOINTED and CKOK is set; under a hypothesis it traps ILLEGAL. R274: `lresume` by a handler that may resume a Lathe starts it at the
record's resume address, a multiple of 4 as every pc is, with its trap cleared, and goes on. -/
def Obligations.CheckpointAndResume : Prop :=
  (∀ (a : BitVec 5) (ta : BitVec 1) (s : State) (x : Nat), Ready s (.ckpt a ta) [a] [] → Quiet s →
    (s.cur.hyp = 0 → (s.gr a).toNat % 8 = 0 → PlainScratch s ((s.gr a).toNat % 2 ^ 56) 8 x →
      leNat (Memory.readBytes s.sp x 8) = 0 → (s.ctx s.cur.ctx).st = .running → (∀ p ∈ s.clusters, p.2.xfers = []) →
      (∀ p ∈ s.cores, p.2.directWrites = []) →
      ∃ t, exec (.ckpt a ta) s = .next t ∧ t.cur.pc = s.cur.pc + 4 ∧ t.cur.ckok = true ∧ (t.ctx s.cur.ctx).st = .checkpointed ∧
        (t.ctx s.cur.ctx).live = [] ∧ (∀ r, t.cur.reg r = s.cur.reg r) ∧ SameMemory s t) ∧
    (s.cur.hyp ≠ 0 → Handles s → ∃ t, exec (.ckpt a ta) s = .next t ∧ TookTrap s t tILLEGAL s.cur.pc)) ∧
  (∀ (a : BitVec 5) (ta : BitVec 1) (s : State) (n : Nat), Ready s (.lresume a ta) [a] [] →
    (s.mayResume (s.gr a).toNat = true → n = latheOfWord (s.gr a).toNat → (s.ctx s.cur.ctx).recs = [] →
      ∃ t, exec (.lresume a ta) s = .next t ∧ t.cur.pc = s.cur.pc + 4 ∧ (t.lathe n).trap = none ∧
        (s.hbmRead (s.cur.trec.toNat + 24) 8 % 4 = 0 → (t.lathe n).pc = BitVec.ofNat 56 (s.hbmRead (s.cur.trec.toNat + 24) 8)) ∧ t.cur.recRetired = true) ∧
    (s.mayResume (s.gr a).toNat = false → Handles s → ∃ t, exec (.lresume a ta) s = .next t ∧ TookTrap s t tILLEGAL s.cur.pc))

/-- R276, R282, R283: a scalar operation issues alone, writes its register with the result modulo 2^32, to land after its latency, and goes
on; `smovk` reads the Lathe's own constant window; and the no-operations only go on. -/
def Obligations.LatheScalarResults : Prop :=
  (∀ p ∈ scalarOps, ∀ (qd qa : BitVec 4) (i : BitVec 1) (imm : BitVec 17) (s : State), LatheReady s (p.1 qd qa i imm) →
    ∃ t, exec (p.1 qd qa i imm) s = .next t ∧ WroteQ s t qd (p.2 (lq s qa) (scalarSrc s i imm)) 1) ∧
  (∀ (qd qa qb : BitVec 4) (cc : BitVec 3) (s : State), LatheReady s (.scmp qd qa qb cc) →
    ∃ t, exec (.scmp qd qa qb cc) s = .next t ∧ WroteQ s t qd (if condHolds cc true (lq s qa) (lq s qb) then 1 else 0) 1) ∧
  (∀ (qd : BitVec 4) (imm : BitVec 22) (s : State), LatheIdle s →
    ∃ t, exec (.smovi qd imm) s = .next t ∧ WroteQ s t qd (imm.signExtend 32) 1) ∧
  (∀ (qd : BitVec 4) (index : BitVec 8) (s : State), LatheIdle s → s.views = [] →
    ∃ t, exec (.smovk qd index) s = .next t ∧ WroteQ s t qd (BitVec.ofNat 32 (leNat (Memory.readBytes s.sp
      (lno s / 4 * 2 ^ 22 + 0x400 * (16 + lno s % 4) + 4 * index.toNat) 4))) 2) ∧
  (∀ i ∈ ([.snop, .vnop, .fnop, .mnop, .enop, .tnop] : List Instr), ∀ s, LatheIdle s → ∃ t, exec i s = .next t ∧ LatheWent s t)

/-- R280, R281, R284, R289: a taken `sb` goes to its bundle's address + 4·disp, three cycles on at the earliest, and another to the next
bundle; `loop` pushes the next address and its count, or begins to skip on a count of 0, and traps ILLEGAL at a fifth level; `trapsw` traps
USER with its code, to resume after it. -/
def Obligations.LatheSequencing : Prop :=
  (∀ (cond : BitVec 2) (qa : BitVec 4) (disp : BitVec 16) (s : State), LatheReady s (.sb cond qa disp) →
    (cond = 0 ∨ (cond = 1 ∧ lq s qa = 0) ∨ (cond = 2 ∧ lq s qa ≠ 0) → ∃ t, exec (.sb cond qa disp) s = .next t ∧ OnlyLathe s t ∧
      t.lathe (lno s) = { issued s (s.lathe (lno s)) ((s.lathe (lno s)).pc + BitVec.ofInt 56 (4 * disp.toInt)) with nextIssue := s.cycle + 3 }) ∧
    ((cond = 1 ∧ lq s qa ≠ 0) ∨ (cond = 2 ∧ lq s qa = 0) → ∃ t, exec (.sb cond qa disp) s = .next t ∧ LatheWent s t)) ∧
  (∀ (i : BitVec 1) (qa : BitVec 4) (imm : BitVec 16) (s : State) (n : Word32), LatheReady s (.loop i qa imm) →
    n = (if i = 1#1 then imm.zeroExtend 32 else lq s qa) →
    (n = 0 → ∃ t, exec (.loop i qa imm) s = .next t ∧ OnlyLathe s t ∧
      t.lathe (lno s) = { issued s (s.lathe (lno s)) ((s.lathe (lno s)).pc + 8) with skip := 1 }) ∧
    (n ≠ 0 → (s.lathe (lno s)).loops.length < 4 → ∃ t, exec (.loop i qa imm) s = .next t ∧ OnlyLathe s t ∧
      t.lathe (lno s) = { issued s (s.lathe (lno s)) ((s.lathe (lno s)).pc + 8) with
        loops := ((s.lathe (lno s)).pc + 8, n) :: (s.lathe (lno s)).loops }) ∧
    (n ≠ 0 → 4 ≤ (s.lathe (lno s)).loops.length → CanTrap s →
      ∃ t, exec (.loop i qa imm) s = .next t ∧ LatheTrapped s t tILLEGAL 0)) ∧
  (∀ (code : BitVec 12) (s : State), LatheIdle s → CanTrap s →
    ∃ t r, exec (.trapsw code) s = .next t ∧ OnlyLathe s t ∧ t.lathe (lno s) =
      { issued s (s.lathe (lno s)) ((s.lathe (lno s)).pc + 8) with trap := some { rec_ := r }, walk := none } ∧
      r.cause = tcauseWord 19 code.toNat 0 0 0 true false false ∧ r.pc = (s.lathe (lno s)).pc.toNat ∧
      r.resume = ((s.lathe (lno s)).pc + 8).toNat ∧ r.lathe = true ∧ r.src = latheWord (lno s) ∧ r.ctx = (s.lathe (lno s)).ctx)

/-- R285 to R287: `qwait` dequeues the head entry: its handle to hd, its flags and count to qd, its tile CONSUMED; it stalls on an empty
queue. `qpost` of a consumed tile and `qeos` write an entry to a queue that is open to them. `tret` frees a tile that nothing reads and
advances its generation, and of a tile that is queued traps TILE_STATE.

R272, R288: `getk` writes the low 32 bits of a system register: zero for those of a thread, the Lathe's own number for k3, the cycle
for k9, OVEC for k4. `setk` writes OVEC, clears the bits of the stall counter k24, ignores the registers of a thread, and traps ILLEGAL on
one that is read-only. An unassigned number traps ILLEGAL. -/
def Obligations.LatheQueues : Prop :=
  ((∀ (hd : BitVec 3) (qd : BitVec 4) (s : State), LatheIdle s →
     (∀ e rest, (s.lathe (lno s)).hq = e :: rest → e.eos = false → (s.lathe (lno s)).hqWait = [] →
       ∃ t, exec (.qwait hd qd) s = .next t ∧ (t.lathe (lno s)).pc = (s.lathe (lno s)).pc + 8 ∧ (t.lathe (lno s)).hq = rest ∧
         (∀ n, Map.get (t.lathe (lno s)).h n 0 = if n = hd.toNat then e.handle else Map.get (s.lathe (lno s)).h n 0) ∧
         (∀ n, Map.get (t.lathe (lno s)).q n 0 = if n = qd.toNat then
             BitVec.ofNat 32 ((if e.chime then 2 ^ 30 else 0) + (if e.full then 2 ^ 29 else 0) + e.vcnt)
           else Map.get (s.lathe (lno s)).q n 0) ∧
         (t.lathe (lno s)).v = (s.lathe (lno s)).v ∧ (t.lathe (lno s)).a = (s.lathe (lno s)).a ∧
         (t.tile (handleKey e.handle.toNat)).st = .consumed ∧ SameMemory s t) ∧
     (∀ e rest, (s.lathe (lno s)).hq = e :: rest → e.eos = true → (s.lathe (lno s)).hqWait = [] →
       ∃ t, exec (.qwait hd qd) s = .next t ∧ (t.lathe (lno s)).pc = (s.lathe (lno s)).pc + 8 ∧ (t.lathe (lno s)).hq = rest ∧
         (t.lathe (lno s)).relPending = true ∧ t.tiles = s.tiles) ∧
     ((s.lathe (lno s)).hq = [] → ∃ t, exec (.qwait hd qd) s = .next t ∧ OnlyLathe s t ∧
       t.lathe (lno s) = { s.lathe (lno s) with held := none, atGang := false })) ∧
   (∀ (l : BitVec 2) (h : BitVec 3) (s : State) (k d : Nat), LatheIdle s → d = lno s / 4 * 4 + l.toNat → PostOpen s d →
     (latheTileIs s h k → (s.tile k).st = .consumed → ∃ t e, exec (.qpostLathe l h) s = .next t ∧ LatheOn s t ∧
       (t.lathe d).hq = (s.lathe d).hq ++ [e] ∧ e.eos = false ∧ e.vcnt = (s.tile k).vcnt ∧ e.handle = BitVec.ofNat 32 (s.handleAt k) ∧
       (t.tile k).st = .queued ∧ (t.tile k).lathe = l.toNat) ∧
     (∃ t, exec (.qeosLathe l) s = .next t ∧ LatheOn s t ∧ (t.lathe d).hq = (s.lathe d).hq ++ [{ eos := true }] ∧ t.tiles = s.tiles)) ∧
   (∀ (h : BitVec 3) (s : State) (k : Nat), LatheIdle s → latheTileIs s h k →
     ((s.tile k).st = .open_ ∨ (s.tile k).st = .consumed → (s.tile k).returnLate = false → (∀ p ∈ s.lathes, p.2.reads = []) →
       (∀ p ∈ s.clusters, p.2.xfers = []) →
       ∃ t, exec (.tretLathe h) s = .next t ∧ LatheOn s t ∧ (t.tile k).st = .free ∧ (t.tile k).gen = ((s.tile k).gen + 1) % 64 ∧
         ∀ k', k' ≠ k → t.tile k' = s.tile k') ∧
     ((s.tile k).st = .held ∨ (s.tile k).st = .queued → CanTrap s →
       ∃ t, exec (.tretLathe h) s = .next t ∧ LatheTrapped s t tTILE_STATE 0))) ∧
  ((∀ (qd : BitVec 4) (k : BitVec 6) (s : State), LatheIdle s →
     (k.toNat ∈ [0, 2, 7, 8, 11, 14, 32, 33, 34, 35] → ∃ t, exec (.getkLathe qd k) s = .next t ∧ WroteQ s t qd 0 1) ∧
     (k.toNat = 3 → ∃ t, exec (.getkLathe qd k) s = .next t ∧ WroteQ s t qd (BitVec.ofNat 32 (2 ^ 16 + lno s / 4 * 16 + lno s % 4)) 1) ∧
     (k.toNat = 4 → ∃ t, exec (.getkLathe qd k) s = .next t ∧
       WroteQ s t qd ((s.ctx (s.lathe (lno s)).ctx).ovec.setWidth 32) 1) ∧
     (k.toNat = 9 → ∃ t, exec (.getkLathe qd k) s = .next t ∧ WroteQ s t qd (BitVec.ofNat 32 s.cycle) 1) ∧
     (k.toNat = 24 → ∃ t, exec (.getkLathe qd k) s = .next t ∧ WroteQ s t qd (BitVec.ofNat 32 (s.lathe (lno s)).fifo.stall) 1) ∧
     (k.toNat = 15 ∨ (26 ≤ k.toNat ∧ k.toNat ≤ 31) ∨ 36 ≤ k.toNat → CanTrap s →
       ∃ t, exec (.getkLathe qd k) s = .next t ∧ LatheTrapped s t tILLEGAL 0)) ∧
   (∀ (qa : BitVec 4) (k : BitVec 6) (s : State), LatheIdle s →
     (k.toNat ∈ [0, 2, 7, 8, 11, 14, 32, 33, 34, 35] → ∃ t, exec (.setkLathe qa k) s = .next t ∧ LatheWent s t) ∧
     (k.toNat = 4 → (lq s qa).toNat % 4 = 0 → ∃ t, exec (.setkLathe qa k) s = .next t ∧ LatheOn s t ∧
       (t.ctx (s.lathe (lno s)).ctx).ovec = (lq s qa).setWidth 64) ∧
     (k.toNat = 24 → ∃ t, exec (.setkLathe qa k) s = .next t ∧ LatheOn s t ∧
       (t.lathe (lno s)).fifo.stall = (s.lathe (lno s)).fifo.stall - ((s.lathe (lno s)).fifo.stall &&& (lq s qa).toNat)) ∧
     (k.toNat ∈ [1, 3, 9, 12, 25] → CanTrap s →
       ∃ t, exec (.setkLathe qa k) s = .next t ∧ LatheTrapped s t tILLEGAL 0)))

/-- R291, R292, R294: the lane operations, lane by lane: integers modulo 2^w by the type's width and signedness, floating lanes by the format
library; `vsel` by the mask in vd; `vcmp` all ones or zero. -/
def Obligations.LatheLaneResults : Prop :=
  (∀ p ∈ intLaneOps, ∀ y ∈ intTypes, ∀ (vd va vb : BitVec 5) (s : State), LatheReady s (p.1 vd va vb y.1) →
    ∃ t v, exec (p.1 vd va vb y.1) s = .next t ∧ WroteV s t vd v p.2.2 ∧
      Lanes y.2.1 v (fun j => p.2.1 y.2.1 y.2.2 (lane (lv s va) y.2.1 j) (lane (lv s vb) y.2.1 j) (lane (lv s vd) y.2.1 j))) ∧
  (∀ p ∈ floatLaneOps, ∀ y ∈ floatTypes, ∀ (vd va vb : BitVec 5) (s : State), LatheReady s (p.1 vd va vb y.1) →
    ∃ t v, exec (p.1 vd va vb y.1) s = .next t ∧ WroteV s t vd v p.2.2 ∧
      Lanes y.2.1 v (fun j => BitVec.ofNat y.2.1 (p.2.1 y.2.2 (lane (lv s va) y.2.1 j).toNat (lane (lv s vb) y.2.1 j).toNat
        (lane (lv s vd) y.2.1 j).toNat))) ∧
  (∀ y ∈ intTypes, ∀ (vd va vb : BitVec 5) (cc : BitVec 3) (s : State), LatheReady s (.vcmp vd va vb y.1 cc) →
    ∃ t v, exec (.vcmp vd va vb y.1 cc) s = .next t ∧ WroteV s t vd v 3 ∧ Lanes y.2.1 v (fun j =>
      if condHolds cc y.2.2 (lane (lv s va) y.2.1 j) (lane (lv s vb) y.2.1 j) then BitVec.allOnes y.2.1 else 0)) ∧
  (∀ y ∈ floatTypes, ∀ (vd va vb : BitVec 5) (cc : BitVec 3) (s : State), LatheReady s (.vcmp vd va vb y.1 cc) →
    ∃ t v, exec (.vcmp vd va vb y.1 cc) s = .next t ∧ WroteV s t vd v 3 ∧ Lanes y.2.1 v (fun j =>
      if floatHolds cc y.2.2 (lane (lv s va) y.2.1 j).toNat (lane (lv s vb) y.2.1 j).toNat then BitVec.allOnes y.2.1 else 0))

/-- R202, R293 to R296: `vcvt` converts lane by lane, from a register pair where it narrows and into one where it widens; `vbcast` writes
the scalar to every lane; `vred` reduces the lanes to a scalar; `vmac16` adds the products of 16-bit pairs to 32-bit lanes.

R297: `vrow` copies a row, or m, l or the NaN bits, of an accumulator into a vector, and `vwacc` the other way; an FP64 accumulator has 32
rows. -/
def Obligations.LatheVectorResults : Prop :=
  ((∀ (vd va : BitVec 5) (ty st : BitVec 3) (s : State), LatheReady s (.vcvt vd va ty st) →
     (laneWidth st.toNat = laneWidth ty.toNat → ∃ t v, exec (.vcvt vd va ty st) s = .next t ∧ WroteV s t vd v 3 ∧
       Lanes (laneWidth ty.toNat) v (fun j => BitVec.ofNat _ (cvtLane st.toNat ty.toNat (lane (lv s va) (laneWidth st.toNat) j).toNat))) ∧
     (laneWidth st.toNat = 32 → laneWidth ty.toNat = 16 → ∃ t v, exec (.vcvt vd va ty st) s = .next t ∧ WroteV s t vd v 3 ∧
       Lanes 16 v (fun j => BitVec.ofNat _ (cvtLane st.toNat ty.toNat
         (if j < 64 then lane (lv s va) 32 j else lane (lv s (va + 1)) 32 (j - 64)).toNat))) ∧
     (laneWidth st.toNat = 16 → laneWidth ty.toNat = 32 → ∃ t v w, exec (.vcvt vd va ty st) s = .next t ∧ OnlyLathe s t ∧
       (t.lathe (lno s)).pc = (s.lathe (lno s)).pc + 8 ∧
       (∀ n, Map.get (t.lathe (lno s)).v n 0 =
         if n = vd.toNat then v else if n = vd.toNat + 1 then w else Map.get (s.lathe (lno s)).v n 0) ∧
       Lanes 32 v (fun j => BitVec.ofNat _ (cvtLane st.toNat ty.toNat (lane (lv s va) 16 j).toNat)) ∧
       Lanes 32 w (fun j => BitVec.ofNat _ (cvtLane st.toNat ty.toNat (lane (lv s va) 16 (64 + j)).toNat)))) ∧
   (∀ (vd : BitVec 5) (qa : BitVec 4) (ty : BitVec 3) (s : State), LatheReady s (.vbcast vd qa ty) →
     ∃ t v, exec (.vbcast vd qa ty) s = .next t ∧ WroteV s t vd v 3 ∧ Lanes (laneWidth ty.toNat) v (fun _ => (lq s qa).setWidth _)) ∧
   (∀ y ∈ intTypes, ∀ (qd : BitVec 4) (va : BitVec 5) (s : State), LatheIdle s →
     (∃ t, exec (.vred qd va y.1 0#2) s = .next t ∧ WroteQ s t qd (BitVec.ofInt 32 (((List.range (2048 / y.2.1)).map (fun j =>
       if y.2.2 then (lane (lv s va) y.2.1 j).toInt else ((lane (lv s va) y.2.1 j).toNat : Int))).sum)) 6) ∧
     (∃ t r, exec (.vred qd va y.1 1#2) s = .next t ∧ WroteQ s t qd (BitVec.setWidth 32 r) 6 ∧
       (∃ j, y.2.1 * j < 2048 ∧ r = lane (lv s va) y.2.1 j) ∧
       ∀ j, y.2.1 * j < 2048 → condHolds 3 y.2.2 r (lane (lv s va) y.2.1 j) = true) ∧
     (∃ t r, exec (.vred qd va y.1 2#2) s = .next t ∧ WroteQ s t qd (BitVec.setWidth 32 r) 6 ∧
       (∃ j, y.2.1 * j < 2048 ∧ r = lane (lv s va) y.2.1 j) ∧
       ∀ j, y.2.1 * j < 2048 → condHolds 3 y.2.2 (lane (lv s va) y.2.1 j) r = true)) ∧
   (∀ y ∈ floatTypes, ∀ (qd : BitVec 4) (va : BitVec 5) (s : State), LatheIdle s →
     (∃ t, exec (.vred qd va y.1 0#2) s = .next t ∧ WroteQ s t qd (BitVec.ofNat 32 (ofFV fp32 (FV.sum
       ((List.range (2048 / y.2.1)).map (fun j => toFV y.2.2 (lane (lv s va) y.2.1 j).toNat))))) 6) ∧
     (∃ t, exec (.vred qd va y.1 1#2) s = .next t ∧ WroteQ s t qd (BitVec.ofNat 32 (((List.range (2048 / y.2.1 - 1)).map
       (fun j => (lane (lv s va) y.2.1 (j + 1)).toNat)).foldl (fmaxCode y.2.2) (lane (lv s va) y.2.1 0).toNat)) 6) ∧
     (∃ t, exec (.vred qd va y.1 2#2) s = .next t ∧ WroteQ s t qd (BitVec.ofNat 32 (((List.range (2048 / y.2.1 - 1)).map
       (fun j => (lane (lv s va) y.2.1 (j + 1)).toNat)).foldl (fminCode y.2.2) (lane (lv s va) y.2.1 0).toNat)) 6)) ∧
   (∀ y ∈ ([(3, true), (4, false)] : List (BitVec 3 × Bool)), ∀ (vd va vb : BitVec 5) (s : State) (f : BitVec 16 → Word32), LatheIdle s →
     f = (fun x => if y.2 then x.signExtend 32 else x.setWidth 32) →
     ∃ t v, exec (.vmac16 vd va vb y.1) s = .next t ∧ WroteV s t vd v 4 ∧ Lanes 32 v (fun j =>
       lane (lv s vd) 32 j + f (lane (lv s va) 16 (2 * j)) * f (lane (lv s vb) 16 (2 * j))
         + f (lane (lv s va) 16 (2 * j + 1)) * f (lane (lv s vb) 16 (2 * j + 1))))) ∧
  (∀ (vd va : BitVec 5) (ty : BitVec 3) (row : BitVec 6) (a : BitVec 3) (s : State), LatheIdle s → (ty = 0 ∨ ty = 2) →
     (∃ t, exec (.vrow vd a ty 0 row) s = .next t ∧
       WroteV s t vd (if (la s a).form = .fp64 ∧ 32 ≤ row.toNat then 0 else Map.get (la s a).rows row.toNat 0) 4) ∧
     (∃ t v, exec (.vrow vd a ty 1 0) s = .next t ∧ WroteV s t vd v 4 ∧ Lanes 32 v (fun j => Map.get (la s a).m j (BitVec.ofNat 32 ninf32))) ∧
     (∃ t v, exec (.vrow vd a ty 2 0) s = .next t ∧ WroteV s t vd v 4 ∧ Lanes 32 v (fun j => Map.get (la s a).l j 0)) ∧
     (∃ t v, exec (.vrow vd a ty 3 0) s = .next t ∧ WroteV s t vd v 4 ∧ Lanes 32 v (fun j => if (la s a).nan.getLsbD j then 1 else 0)) ∧
     (∃ t x, exec (.vwacc a va ty 0 row) s = .next t ∧ WroteA s t a x 4 ∧ x = { la s a with rows := x.rows } ∧
       ∀ n, Map.get x.rows n 0 = if n = row.toNat ∧ ((la s a).form ≠ .fp64 ∨ row.toNat < 32) then lv s va else Map.get (la s a).rows n 0) ∧
     (∃ t x, exec (.vwacc a va ty 1 0) s = .next t ∧ WroteA s t a x 4 ∧ x = { la s a with m := x.m } ∧
       ∀ j, j < 64 → Map.get x.m j (BitVec.ofNat 32 ninf32) = lane (lv s va) 32 j) ∧
     (∃ t x, exec (.vwacc a va ty 2 0) s = .next t ∧ WroteA s t a x 4 ∧ x = { la s a with l := x.l } ∧
       ∀ j, j < 64 → Map.get x.l j 0 = lane (lv s va) 32 j) ∧
     (∃ t x, exec (.vwacc a va ty 3 0) s = .next t ∧ WroteA s t a x 4 ∧ x = { la s a with nan := x.nan } ∧
       ∀ j, j < 64 → x.nan.getLsbD j = (lane (lv s va) 32 j).getLsbD 0))

/-- R298, R38, R39, R309 to R311: the special functions, FP32 lane by lane; `smxm` merges, `smxf` finalises and `smxz` empties the softmax
states of the rows of an accumulator; `smx` takes the softmax step of every row, its P rows, the weights of the step as BF16, becoming valid
together in an open BF16
tile, that no other Lathe seals in this cycle, whose bytes outside those elements stay. That the bytes of the P rows are in the tile at issue is the
model's choice (assumption 58), and so are the approximations that `flog2`, `fsin` and `fcos` give (assumption 67) and the running maximum over
zeros and NaNs (assumption 82). -/
def Obligations.LatheFunctionResults : Prop :=
  (∀ p ∈ laneFuns, ∀ (vd va : BitVec 5) (s : State), LatheIdle s → ∃ t v, exec (p.1 vd va) s = .next t ∧ WroteV s t vd v 8 ∧
    Lanes 32 v (fun j => BitVec.ofNat 32 (p.2 (lane (lv s va) 32 j).toNat))) ∧
  (∀ (ad ae : BitVec 3) (s : State), LatheReady s (.smxm ad ae) → (la s ad).form = .fp32 → (la s ae).form = .fp32 →
    ∃ t x, exec (.smxm ad ae) s = .next t ∧ WroteA s t ad x 40 ∧ x.form = .fp32 ∧ x.cv = (la s ad).cv ∧
      ∀ i, i < 64 → RowHolds x i (softmaxMerge ((la s ad).rowState i) ((la s ae).rowState i))) ∧
  (∀ (a : BitVec 3) (s : State), LatheIdle s →
    ((la s a).form = .fp32 → ∃ t x, exec (.smxf a) s = .next t ∧ WroteA s t a x 24 ∧ x.form = .fp32 ∧ x.cv = (la s a).cv ∧
      ∀ i, i < 64 → RowHolds x i (softmaxFinal ((la s a).rowState i))) ∧
    ((la s a).form ≠ .fp32 → CanTrap s → ∃ t, exec (.smxf a) s = .next t ∧ LatheTrapped s t tILLEGAL 3) ∧
    (∃ t, exec (.smxz a) s = .next t ∧ WroteA s t a { cv := BitVec.allOnes 64 } 4)) ∧
  (∀ (ao asc : BitVec 3) (qs : BitVec 4) (h : BitVec 3) (s : State) (k : Nat), LatheReady s (.smx ao asc qs h) → (la s ao).form = .fp32 →
    (la s asc).form = .fp32 → latheTileIs s h k → (s.tile k).st = .open_ → (s.tile k).sealsNow s.cycle = false → (s.tile k).target = 0 →
    (s.tile k).shape.fmt = 10 → 64 ≤ (s.tile k).shape.rows → 64 ≤ (s.tile k).shape.cols → (s.tile k).valid.extractLsb' 0 64 = 0 →
    k ∉ s.sealedByOthers (lno s) →
    ∃ t x, exec (.smx ao asc qs h) s = .next t ∧ (t.lathe (lno s)).pc = (s.lathe (lno s)).pc + 8 ∧
      (t.lathe (lno s)).pending = [(.a ao.toNat, s.cycle + 40)] ∧
      (∀ n, Map.get (t.lathe (lno s)).a n emptyAcc = if n = ao.toNat then x else Map.get (s.lathe (lno s)).a n emptyAcc) ∧
      (∀ i, i < 64 → RowHolds x i (softmaxStep ((la s ao).rowState i) ((la s asc).rowElems i)
        ((List.range 64).map (fun j => (la s asc).cv.getLsbD j)) (lq s qs).toNat).1) ∧
      t.tile k = { s.tile k with valid := (s.tile k).valid ||| BitVec.ofNat 128 (2 ^ 64 - 1), vcnt := (s.tile k).vcnt + 64,
                                 postAfter := s.cycle + 40, wroteAt := some s.cycle } ∧
      t.hbm = s.hbm ∧ t.host = s.host ∧ t.slots = s.slots ∧
      (0 < (s.tile k).shape.estr → 126 * (s.tile k).shape.estr + 2 ≤ (s.tile k).shape.rstride → ∀ i j, i < 64 → j < 64 →
        Memory.readBytes t.sp (elemAddr s k i j) 2 = leBytes 2 ((softmaxStep ((la s ao).rowState i) ((la s asc).rowElems i)
          ((List.range 64).map (fun j => (la s asc).cv.getLsbD j)) (lq s qs).toNat).2.getD j 0)) ∧
      (∀ x, (∀ i j, i < 64 → j < 64 → x < elemAddr s k i j ∨ elemAddr s k i j + 2 ≤ x) → Memory.readByte t.sp x = Memory.readByte s.sp x))

/-- R299 to R302: a matrix operation over two sealed or consumed tiles of one class takes its operands at issue, those of the two matrices that the
offsets in
qo place, and falls due 48 cycles on; the tiles are read for 32. Both trap FORMAT_FAULT for tiles of different classes, TILE_STATE for an open one,
and ILLEGAL where they
accumulate into an accumulator of another form. -/
def Obligations.MatrixIssue : Prop :=
  ∀ (ad hA hB : BitVec 3) (na nb dis : BitVec 1) (qo : BitVec 4) (s : State) (ka kb : Nat) (q : Word32), LatheIdle s → PlainTiles s →
    latheTileIs s hA ka → latheTileIs s hB kb → q = lq s qo →
    (∀ c, (s.tile ka).st ≠ .open_ → (s.tile kb).st ≠ .open_ → matClass (s.tile ka).shape.fmt (s.tile kb).shape.fmt = some c →
      (s.tile ka).shape.fmt ≠ 14 → (s.tile kb).shape.fmt ≠ 14 → (dis = 1#1 ∨ (la s ad).form = c.form) →
      (∃ t m, exec (.mma ad hA hB na nb dis qo) s = .next t ∧ OnlyLathe s t ∧ t.lathe (lno s) =
          { issued s (s.lathe (lno s)) ((s.lathe (lno s)).pc + 8) with
            fetched := (s.lathe (lno s)).fetched, mats := [m], lastMat := some s.cycle, reads := [(ka, s.cycle + 32), (kb, s.cycle + 32)] } ∧
        m.acc = ad.toNat ∧ m.start = s.cycle ∧ m.landsAt = s.cycle + 48 ∧ m.form = c.form ∧ m.dis = (dis == 1#1) ∧
        m.na = (na == 1#1) ∧ m.nb = (nb == 1#1) ∧
        ∀ i k, i < c.m → k < c.k →
          (m.a.getD i []).getD k 0 = tileElem s ka ((q.extractLsb' 0 7).toNat + i) ((q.extractLsb' 14 9).toNat + k) ∧
          (m.b.getD i []).getD k 0 = tileElem s kb ((q.extractLsb' 7 7).toNat + k) ((q.extractLsb' 23 9).toNat + i)) ∧
      (∃ t m, exec (.mmat ad hA hB na nb dis qo) s = .next t ∧ OnlyLathe s t ∧ t.lathe (lno s) =
          { issued s (s.lathe (lno s)) ((s.lathe (lno s)).pc + 8) with
            fetched := (s.lathe (lno s)).fetched, mats := [m], lastMat := some s.cycle, reads := [(ka, s.cycle + 32), (kb, s.cycle + 32)] } ∧
        m.acc = ad.toNat ∧ m.landsAt = s.cycle + 48 ∧ m.form = c.form ∧
        (∀ i k, i < c.m → k < c.k →
          (m.a.getD i []).getD k 0 = tileElem s ka ((q.extractLsb' 0 7).toNat + i) ((q.extractLsb' 14 9).toNat + k) ∧
          (m.b.getD i []).getD k 0 = tileElem s kb ((q.extractLsb' 7 7).toNat + i) ((q.extractLsb' 23 9).toNat + k)) ∧
        ∀ j, j < c.m → m.cv.getLsbD j = (decide ((q.extractLsb' 7 7).toNat + j < 128) &&
          decide ((q.extractLsb' 7 7).toNat + j < (s.tile kb).shape.rows) && (s.tile kb).valid.getLsbD ((q.extractLsb' 7 7).toNat + j)))) ∧
    (∀ op ∈ [Instr.mma ad hA hB na nb dis qo, Instr.mmat ad hA hB na nb dis qo], CanTrap s →
      ((s.tile ka).st = .open_ ∨ (s.tile kb).st = .open_ → ∃ t, exec op s = .next t ∧ LatheTrapped s t tTILE_STATE 4) ∧
      ((s.tile ka).st ≠ .open_ → (s.tile kb).st ≠ .open_ → matClass (s.tile ka).shape.fmt (s.tile kb).shape.fmt = none →
        ∃ t, exec op s = .next t ∧ LatheTrapped s t tFORMAT_FAULT 4) ∧
      (∀ c, (s.tile ka).st ≠ .open_ → (s.tile kb).st ≠ .open_ → matClass (s.tile ka).shape.fmt (s.tile kb).shape.fmt = some c → dis = 0#1 →
        (la s ad).form ≠ c.form → ∃ t, exec op s = .next t ∧ LatheTrapped s t tILLEGAL 4))

/-- R36, R37, R301: when a matrix operation lands, element (i, j) of its accumulator is the old element, or nothing where it
disables accumulation, with the group sums of row i of A and column j of B added in order, scaled by the exponent; the column mask is met. -/
def Obligations.MatrixLanding : Prop :=
  ∀ (s : State) (l : Nat) (m : MatOp) (c : MatClass) (x : Acc), (s.lathe l).mats = [m] → m.landsAt ≤ s.cycle →
    matClass m.fmtA m.fmtB = some c → m.form = c.form → m.a.length = c.m → m.b.length = c.m → x = Map.get (s.lathe l).a m.acc emptyAcc →
    (m.dis = true ∨ x.form = c.form) →
    ∃ y, Map.get ((s.settle l).lathe l).a m.acc emptyAcc = y ∧ ((s.settle l).lathe l).mats = [] ∧ y.form = c.form ∧
      y.cv = (if m.dis then m.cv else x.cv &&& m.cv) ∧ y.m = x.m ∧ y.l = x.l ∧ y.nan = x.nan ∧
      (∀ n, n ≠ m.acc → Map.get ((s.settle l).lathe l).a n emptyAcc = Map.get (s.lathe l).a n emptyAcc) ∧
      ∀ i j, i < c.m → j < c.m → lane (Map.get y.rows i 0) (formWidth c.form) j = BitVec.ofNat _
        (match c.form with
         | .int32 => addIntGroups m.e (pieces c.g 8 (intProducts m (m.a.getD i []) (m.b.getD j []))) m.dis
             (lane (Map.get x.rows i 0) (formWidth c.form) j).toNat
         | .fp32 => addGroups fp32 m.e (pieces c.g 8 (floatProducts m (m.a.getD i []) (m.b.getD j []))) m.dis
             (lane (Map.get x.rows i 0) (formWidth c.form) j).toNat
         | .fp64 => addGroups fp64 m.e (pieces c.g 8 (floatProducts m (m.a.getD i []) (m.b.getD j []))) m.dis
             (if m.dis then 0 else (lane (Map.get x.rows i 0) (formWidth c.form) j).toNat))

/-- R305, R306, R308: `escl` gives its exponent to the matrix operation that was issued 12 cycles before, and otherwise sets the Lathe's
ORPHAN_SCALE bit; four `xchg`s in gang bundles exchange their slices, slice i of vd on Lathe n being slice n of va on Lathe i,
when the last Lathe reaches its bundle, or, where all four have, at the gang's issue. -/
def Obligations.ScaleAndExchange : Prop :=
  (∀ (e : BitVec 8) (s : State), (s.lathe (lno s)).pending = [] → (s.lathe (lno s)).reads = [] → (s.lathe (lno s)).relPending = false →
    (s.lathe (lno s)).eDone = false →
    (∀ m, (s.lathe (lno s)).mats = [m] → m.start + 12 = s.cycle → s.cycle < m.landsAt →
      ∃ t, exec (.escl e) s = .next t ∧ OnlyLathe s t ∧ t.lathe (lno s) =
        { issued s (s.lathe (lno s)) ((s.lathe (lno s)).pc + 8) with mats := [{ m with e := e.toInt, escaled := true }] }) ∧
    ((s.lathe (lno s)).mats = [] → ∃ t, exec (.escl e) s = .next t ∧ LatheOn s t ∧
      Map.get (t.cluster (lno s / 4)).scalest (s.lathe (lno s)).ctx 0 =
        (Map.get (s.cluster (lno s / 4)).scalest (s.lathe (lno s)).ctx 0 ||| 2 ^ (lno s % 4)))) ∧
  (∀ (s : State) (n : Nat) (vd va : Nat → BitVec 5), (s.lathe n).bound.isSome = true → (∀ i, i < 4 → GangLathe s n i) →
    (n = lno s / 4 * 4 → (∀ i, i < 4 → n + i ≠ lno s → AtXchg s n i (vd i) (va i)) →
      ∃ t, exec (.xchg (vd (lno s % 4)) (va (lno s % 4))) s = .next t ∧ Exchanged s t n vd va) ∧
    (n = 4 * s.ctl.at_.cluster → (∀ i, i < 4 → AtXchg s n i (vd i) (va i)) → ∃ t, exec .gangIssue s = .next t ∧ Exchanged s t n vd va))

/-- R312 to R316: `tld` reads a chunk of a row's element image, zero beyond it and where the row is not valid; `tmask` reads 32 valid bits;
`tst` writes the elements of a chunk of a row of an open tile, and of one that another Lathe of the cluster seals in this cycle, in its turn to come,
is refused (R132; that turns give the order within a cycle is the model's choice, assumption 73); `tseal` seals an open tile, whose handle is posted, and leaves another
as it is.

R213, R315, R98: `tout` of a 256-byte aligned address, taken modulo 2^56 (assumption 56), whose page the TLB maps to module memory for writing, stores
the 256 bytes of va there; another address traps ALIGN_FAULT. `tout.c` puts the request in va at the end of the Lathe's Chuck FIFO; a full FIFO traps
CHUCK_FULL in a strict context and stalls in another. -/
def Obligations.LatheTileAccess : Prop :=
  (∀ (r : BitVec 5) (h : BitVec 3) (row : BitVec 7) (chunk : BitVec 5) (s : State) (k n : Nat), LatheIdle s → latheTileIs s h k →
     n = elemSize (s.tile k).shape.fmt →
     ((s.tile k).st ≠ .open_ → (s.tile k).shape.fmt ≠ 14 → PlainTiles s →
       ∃ t, exec (.tld r h row chunk) s = .next t ∧ OnlyLathe s t ∧ t.lathe (lno s) =
           { issued s (s.lathe (lno s)) ((s.lathe (lno s)).pc + 8) with
             v := (t.lathe (lno s)).v, pending := [(.v r.toNat, s.cycle + 6)], reads := [(k, s.cycle + 6)] } ∧
         (∀ d, d ≠ r.toNat → Map.get (t.lathe (lno s)).v d 0 = Map.get (s.lathe (lno s)).v d 0) ∧
         Lanes 8 (Map.get (t.lathe (lno s)).v r.toNat 0) (fun i =>
           if row.toNat < (s.tile k).shape.rows ∧ (s.tile k).valid.getLsbD row.toNat = true ∧ 256 * chunk.toNat + i < (s.tile k).shape.cols * n
           then Memory.readByte s.sp (elemAddr s k row.toNat ((256 * chunk.toNat + i) / n) + (256 * chunk.toNat + i) % n) else 0)) ∧
     ((s.tile k).st = .open_ → CanTrap s →
       ∃ t, exec (.tld r h row chunk) s = .next t ∧ LatheTrapped s t tTILE_STATE 6) ∧
     (∀ (qd : BitVec 4) (sel : BitVec 2), ∃ t, exec (.tmask qd h sel) s = .next t ∧
       WroteQ s t qd ((s.tile k).valid.extractLsb' (32 * sel.toNat) 32) 2) ∧
     (∀ fin : BitVec 1, (s.tile k).st = .open_ → (s.tile k).sealsNow s.cycle = false → (s.tile k).target = 0 → (s.tile k).shape.fmt ≠ 14 →
       row.toNat < (s.tile k).shape.rows → 256 * chunk.toNat < (s.tile k).shape.cols * n → (s.tile k).valid.getLsbD row.toNat = false →
       0 < (s.tile k).shape.estr → k ∉ s.sealedByOthers (lno s) →
       ∃ t, exec (.tstLathe r h row chunk fin) s = .next t ∧ (t.lathe (lno s)) = issued s (s.lathe (lno s)) ((s.lathe (lno s)).pc + 8) ∧
         t.hbm = s.hbm ∧ t.host = s.host ∧ t.slots = s.slots ∧
         t.tile k = (if fin = 1#1 then { s.tile k with valid := (s.tile k).valid ||| BitVec.ofNat 128 (2 ^ row.toNat), vcnt := (s.tile k).vcnt + 1, wroteAt := some s.cycle }
                     else { s.tile k with wroteAt := some s.cycle }) ∧
         (∀ j, 256 * chunk.toNat ≤ j * n → j * n < 256 * chunk.toNat + 256 → j < (s.tile k).shape.cols →
           Memory.readBytes t.sp (elemAddr s k row.toNat j) n = leBytes n ((lv s r).toNat / 2 ^ (8 * (j * n - 256 * chunk.toNat)))) ∧
         (∀ x, (∀ j, 256 * chunk.toNat ≤ j * n → j * n < 256 * chunk.toNat + 256 → j < (s.tile k).shape.cols →
             x < elemAddr s k row.toNat j ∨ elemAddr s k row.toNat j + n ≤ x) → Memory.readByte t.sp x = Memory.readByte s.sp x)) ∧
     (∀ fin : BitVec 1, (s.tile k).st = .open_ → (s.tile k).shape.fmt ≠ 14 → row.toNat < (s.tile k).shape.rows →
       256 * chunk.toNat < (s.tile k).shape.cols * n → k ∈ s.sealedByOthers (lno s) → CanTrap s →
       ∃ t, exec (.tstLathe r h row chunk fin) s = .next t ∧ LatheTrapped s t { cause := 12, status := 3 } 6) ∧
     ((s.tile k).st = .open_ → (s.tile k).wroteAt ≠ some s.cycle → (s.tile k).postAfter ≤ s.cycle →
       s.boundIn (s.latheOf k) (s.lathe (lno s)).ctx = true →
       (s.lathe (s.latheOf k)).hq.length < 64 → (s.lathe (s.latheOf k)).hqWait = [] →
       ∃ t e, exec (.tseal h) s = .next t ∧ LatheOn s t ∧ (t.tile k).st = .queued ∧
         (t.lathe (s.latheOf k)).hq = (s.lathe (s.latheOf k)).hq ++ [e] ∧ e.eos = false ∧ e.chime = false ∧ e.vcnt = (s.tile k).vcnt ∧
         e.handle = BitVec.ofNat 32 (s.handleAt k)) ∧
     ((s.tile k).st ≠ .open_ → ∃ t, exec (.tseal h) s = .next t ∧ LatheWent s t)) ∧
  (∀ (va : BitVec 5) (qa qb : BitVec 4) (s : State) (a : Nat), LatheIdle s → a = ((lq s qb).toNat * 2 ^ 32 + (lq s qa).toNat) % 2 ^ 56 →
     (∀ e pa, a % 256 = 0 → windowOf a = .global → s.look (lno s / 4) (s.lathe (lno s)).ctx a .write true false = .ok e pa → e.tgt = 0 →
       ∃ t, exec (.tout va qa qb) s = .next t ∧ t.lathe (lno s) = issued s (s.lathe (lno s)) ((s.lathe (lno s)).pc + 8) ∧
         t.sp = s.sp ∧ t.host = s.host ∧ t.slots = s.slots ∧ Stored s.hbm t.hbm pa (leBytes 256 (lv s va).toNat)) ∧
     (a % 256 ≠ 0 → CanTrap s →
       ∃ t, exec (.tout va qa qb) s = .next t ∧ LatheTrapped s t (tALIGN_FAULT (BitVec.ofNat 64 a)) 6) ∧
     ((s.lathe (lno s)).fifo.entries.length < 16 → ∃ t q, exec (.toutC va qa qb) s = .next t ∧ LatheOn s t ∧
       (t.lathe (lno s)).fifo.entries = (s.lathe (lno s)).fifo.entries ++ [q] ∧ q.ctx = (s.lathe (lno s)).ctx ∧ q.lathe = some (lno s) ∧
       q.w = [lane (lv s va) 64 0, lane (lv s va) 64 1, lane (lv s va) 64 2, lane (lv s va) 64 3]) ∧
     (16 ≤ (s.lathe (lno s)).fifo.entries.length → (s.ctx (s.lathe (lno s)).ctx).cstrict = true → CanTrap s →
       ∃ t, exec (.toutC va qa qb) s = .next t ∧ LatheTrapped s t { cause := 14 } 6) ∧
     (16 ≤ (s.lathe (lno s)).fifo.entries.length → (s.ctx (s.lathe (lno s)).ctx).cstrict = false → (s.lathe (lno s)).stalledPost = false →
       ∃ t, exec (.toutC va qa qb) s = .next t ∧ OnlyLathe s t ∧ (t.lathe (lno s)).pc = (s.lathe (lno s)).pc ∧
         (t.lathe (lno s)).fifo.entries = (s.lathe (lno s)).fifo.entries ∧
         (t.lathe (lno s)).fifo.stall = min ((s.lathe (lno s)).fifo.stall + 1) (2 ^ 32 - 1)))

/-- R210, R278, R279: every slot operation with a field value that its table calls illegal traps ILLEGAL, and every one that reads or
writes a register whose write has not landed traps HAZARD, before any trap of its own and where nothing stalls it (that order of stall, hazard and
the operations' own checks is the model's choice, assumption 54); its bundle takes no effect. A bundle that is illegal at decode traps ILLEGAL in the slot at
fault. R332, R333: a stopped Lathe that has drained writes its trap record at the next free index of its context's ring, unless one of a later
place has been written in the same cycle. -/
def Obligations.LatheTraps : Prop :=
  (∀ (i : Instr) (s : State), (kindOf i).isSome = true → (∀ vd va, i ≠ .xchg vd va) → CanTrap s →
    (slotValueLegal i = false → ∃ t, exec i s = .next t ∧ LatheTrapped s t tILLEGAL (slotNoOf i)) ∧
    (∀ r c, slotValueLegal i = true → Unstalled s i → r ∈ slotReads i ++ slotWrites i → (s.lathe (lno s)).pending = [(r, c)] → s.cycle < c →
      (s.lathe (lno s)).mats = [] → (s.lathe (lno s)).reads = [] → (s.lathe (lno s)).relPending = false →
      ∃ t, exec i s = .next t ∧ LatheTrapped s t { cause := 15 } (slotNoOf i))) ∧
  (∀ (slot : BitVec 4) (s : State), CanTrap s →
    ∃ t, exec (.illegalBundle slot) s = .next t ∧ LatheTrapped s t tILLEGAL slot.toNat) ∧
  (∀ (s : State) (r : TrapRec) (i a : Nat), s.trapDue (lno s) = some r → (s.lathe (lno s)).pending = [] → (s.lathe (lno s)).mats = [] →
    (s.lathe (lno s)).reads = [] → s.inTurn r = true → s.ringIndex r.ctx = some i → a = (s.ctx r.ctx).saveb * 4096 + 0x1000 + 64 * (i % 256) →
    ∃ t, exec .latheTrap s = .next t ∧ ((t.lathe (lno s)).trap.map (·.written)) = some true ∧
      ∀ j, j < 8 → t.hbmRead (a + 8 * j) 8 = r.words.getD j 0 % 2 ^ 64)

/-- R200 to R206, R211 to R213: words written out from Tables 14-1 to 14-9 decode to the instructions they stand for; a major opcode that Table
14-2 does not list is an unassigned opcode; a non-zero unused field is refused. -/
def Obligations.SpecWords : Prop :=
  decodeSpindle 0x0118DFFF = .ok (.addi 3 3 0 0x1FFF) ∧ decodeSpindle 0x10088700 = .ok (.add 1 2 3 1 0) ∧
  decodeSpindle 0x232989FF = .ok (.ldD 5 6 0 2 1 0xFF) ∧ decodeSpindle 0x40088FFF = .ok (.beq 1 2 0 0 0xFFF) ∧
  decodeSpindle 0x50000007 = .ok .exit ∧ decodeSpindle 0x54000001 = .ok .eret ∧
  decodeSlot .s 0x310CFFFE = .ok (.sb 1 3 0xFFFE) ∧ decodeSlot .v 0x04221A00 = .ok (.vadd 1 2 3 2) ∧
  decodeSlot .m 0x04A65400 = .ok (.mma 1 2 3 0 0 1 5) ∧ decodeSlot .t 0x10012301 = .ok (.toutC 1 2 3) ∧
  decodeSpindle 0x00000000 = .ok (.unassignedOpcode 0) ∧ decodeSpindle 0x54000080 = .error .unusedField

/-- R200 to R206: every spindle word that the encoder writes, with every operand at every value of its field, decodes to its instruction. -/
def Obligations.SpindleDecodeOfEncode : Prop :=
  ∀ (i : Instr) (w : Word32), encodeSpindle i = some w → decodeSpindle w = .ok i ∧ decodeTableWord 32 w.toNat = some i

/-- R203 to R206: every 32-bit word that decodes is the encoding of what it decodes to, or is an unassigned opcode, which keeps the word. -/
def Obligations.SpindleEncodeOfDecode : Prop :=
  ∀ (i : Instr) (w : Word32), decodeSpindle w = .ok i → i = .unassignedOpcode w ∨ encodeSpindle i = some w

/-- R210 to R213: every slot word that the encoder writes decodes, in its kind of slot, to its operation, with every operand at every value of its
field; an operation with a value that the tables mark illegal is refused as such. -/
def Obligations.SlotDecodeOfEncode : Prop :=
  ∀ (i : Instr) (k : SlotKind) (w : Word32), kindOf i = some k → encodeSlot i = some w →
    decodeSlotRaw k w = .ok i ∧ decodeSlot k w = (if slotValueLegal i then .ok i else .error .illegalValue)

/-- R88, R108, R241, R331: on a core's turn the slot it picks issues the instruction of the word at its pc: the step is `exec` of it, in the
state after the fetch has looked at its versions (R160), a `pfxl` given up has released its pins (R186), and the issue has been noted
(round-robin, spacing, budget); a word that R203 refuses traps ILLEGAL. On a Lathe's turn a bundle of one
operation, not of a gang and with neither delay nor lend mark, is `exec` of that operation (R207 to R210, R276). An event's turn is `exec` of that
event at its place. The turn is one that no other goes before in its cycle; what follows every turn at once is `outAfter`: notification waits are
met (R148), and launches that are done end (R90). That a state names the coming turns is the model's choice (assumption 1). -/
def Obligations.StepRunsDecoded : Prop :=
  (∀ (s u v : State) (core k : Nat) (rest : List Turn) (w : Word32), s.ctl.turns = .spindle core :: rest → s.mgmt.off = false →
    s.goesFirst (.spindle core) = none → u = laterTurns s rest → u.coreFree core = true → u.pickReady core = some k → v = u.actAt k →
      v.cur.late = [] → v.fetchWord k = .word w →
    (∀ i, decodeSpindle w = .ok i → step s = outAfter (exec i (((v.fetchLooked k).keepsPfx k i).issued k))) ∧
    (∀ e, decodeSpindle w = .error e → step s = outAfter (.next ((((v.fetchLooked k).releasePfx k).issued k).trap tILLEGAL)))) ∧
  (∀ (s a u s0 s1 : State) (l pc : Nat) (rest : List Turn) (h : Word32) (ws : List Word32) (b : Bundle) (i : Instr),
    s.ctl.turns = .lathe l :: rest → s.mgmt.off = false → s.goesFirst (.lathe l) = none → a = (laterTurns s rest).latheAt l →
    u = a.setLathe l { a.lathe l with turnAt := some a.cycle } → u.latheMay l = true → (u.lathe l).late = [] → (u.lathe l).skip = 0 →
      (u.lathe l).atGang = false → pc = (u.lathe l).pc.toNat → u.bundleWords l pc = (s0, .ok (h, s1, .ok ws)) →
    decodeBundle pc (u.lathe l).loops.isEmpty (h :: ws) = .ok b → b = { addr := pc, size := 8, ops := [(slotNoOf i, i)] } → b.hasMat = false →
    step s = outAfter (exec i s1)) ∧
  (∀ (s : State) (p : Place) (i : Instr) (rest : List Turn), s.ctl.turns = .event p i :: rest → s.mgmt.off = false → isEvent i = true →
    s.goesFirst (.event p i) = none → step s = outAfter (exec i { s with ctl := { s.ctl with turns := rest, at_ := p } }))

/-- R4, R118, R139, R188, R362, R370, R373, Table 4-1, Table 9-3: after module reset the boot state is ROM, every slot is FREE with its registers
zero and EMPTY, every context FREE, every tile FREE, every barrier IDLE with phase 0, every port DOWN, no frame marked, PCAP 3,600, CYCLE 0, and no waiter entry.
Zero where the spec gives no value, and memories with nothing listed, are the model's choices (assumptions 3 to 6). -/
def Obligations.ResetValues : Prop :=
  State.reset.mgmt.boot = .rom ∧ State.reset.mgmt.pcap = 3600 ∧ State.reset.cycle = 0 ∧ State.reset.marked = [] ∧
  (∀ k, (State.reset.slot k).st = .free ∧ ∀ r, ((State.reset.slot k).reg r).st = .empty ∧ ((State.reset.slot k).reg r).v = 0) ∧
  (∀ c, (State.reset.ctx c).st = .free) ∧ (∀ k, (State.reset.tile k).st = .free) ∧ (∀ n, (State.reset.port n).st = .down) ∧
  (∀ c i, (Map.get (State.reset.cluster c).barriers i {}).owner = none ∧ (Map.get (State.reset.cluster c).barriers i {}).phase = 0) ∧
  memoriesWf State.reset ∧ WaitersHomed State.reset

/-- Every step, from every state, is to a next state: no path of the model ends in a fault or a refusal. -/
def Obligations.EveryStepGoesOn : Prop := ∀ s : State, goesOn (step s)

/-- R148: every step keeps every waiter entry of an `nwait` at the home slice of its word. -/
def Obligations.WaitersStayHomed : Prop := ∀ s t : State, WaitersHomed s → step s = .next t → WaitersHomed t

/-- Every step from a state whose memories are in canonical form (addresses rising, no byte listed that an unlisted address reads as) leaves them
so; the canonical form is the model's own (assumption 3). -/
def Obligations.MemoryStaysCanonical : Prop := ∀ s t : State, memoriesWf s → step s = .next t → memoriesWf t

/-- R70, Table 4-3: a CCTL command that the table lists for the state of the index takes the addr of its own write: LOAD begins LOADING; SAVE
and FORCE begin SAVING into the area of addr, or of the descriptor where addr is 0, compact for SAVE of a CHECKPOINTED context, with the context's
chimes standing still (R76); RESTORE begins RESTORING; TEARDOWN begins TEARDOWN. In another state the command sets status 2 and does nothing else. -/
def Obligations.ContextCommands : Prop :=
  ∀ (ctx : BitVec 6) (addr : BitVec 44) (s : State) (n a : Nat) (c : Ctx), s.mgmt.boot = .ready → n = ctx.toNat → c = s.ctx n → a = addr.toNat →
    (c.st = .free → Does (.load ctx addr) s (fun t => CtxIs s t n { c with addr := a, loadAddr := a, st := .loading })) ∧
    (c.st ≠ .free → Does (.load ctx addr) s (fun t => CtxIs s t n { c with status := 2 })) ∧
    (c.st = .running ∨ c.st = .checkpointed → Does (.save ctx addr) s (fun t => t.hbm = s.hbm ∧ ChimesStand s t n ∧
      t.ctx n = { c with addr := a, st := .saving, away := true, saveArea := (if a = 0 then c.saveb else a) * 4096,
                         compact := decide (c.st = .checkpointed) })) ∧
    (c.st ≠ .running → c.st ≠ .checkpointed → Does (.save ctx addr) s (fun t => CtxIs s t n { c with status := 2 })) ∧
    (c.st = .running ∨ c.st = .checkpointed ∨ c.st = .faulted → Does (.force ctx addr) s (fun t => t.hbm = s.hbm ∧ ChimesStand s t n ∧
      t.ctx n = { c with addr := a, st := .saving, away := true, saveArea := (if a = 0 then c.saveb else a) * 4096, compact := false })) ∧
    (c.st ≠ .running → c.st ≠ .checkpointed → c.st ≠ .faulted → Does (.force ctx addr) s (fun t => CtxIs s t n { c with status := 2 })) ∧
    (c.st = .free ∨ c.st = .saved → Does (.restore ctx addr) s (fun t =>
      CtxIs s t n { c with addr := a, st := .restoring, before := c.st, saveArea := a * 4096 })) ∧
    (c.st ≠ .free → c.st ≠ .saved → Does (.restore ctx addr) s (fun t => CtxIs s t n { c with status := 2 })) ∧
    (c.st = .running ∨ c.st = .checkpointed ∨ c.st = .saved ∨ c.st = .faulted → Does (.teardown ctx addr) s (fun t =>
      t.hbm = s.hbm ∧ t.ctx n = { c with addr := a, st := .teardown, live := [] })) ∧
    (c.st ≠ .running → c.st ≠ .checkpointed → c.st ≠ .saved → c.st ≠ .faulted →
      Does (.teardown ctx addr) s (fun t => CtxIs s t n { c with status := 2 }))

/-- R71, R72, R75 to R78, R329: LOADING ends RUNNING with the fields of an accepted descriptor and with the header of its save area begun, its
vectors untouched (what else LOAD puts there is the model's choice, assumption 80; what an index keeps through LOAD and TEARDOWN, too,
assumption 81), or FREE with status 3. A save of a context that holds
nothing in the units writes its image's header word and is SAVED with status 0, or, where its image would pass the end of module HBM or meet a retired frame, is FAULTED with
status 4; the lengths of the image's sections are free (assumption 2). A restore finds its image, or keeps its state and sets status 4; with a claim
held, status 5. Teardown leaves the index FREE, without a thread, a pin or a page,
and no slot of the context, once no log record is left that its budget keeps it from reading. What a restore and a teardown do with the units is read from several
rules (assumption 33). -/
def Obligations.ContextEvents : Prop :=
  ∀ (s : State) (n : Nat) (c : Ctx), n = s.ctl.at_.ctx → c = s.ctx n →
    (∀ d, c.st = .loading → d = s.hbmRead (c.loadAddr * 4096) 64 →
      (∀ b, s.inMap (c.loadAddr * 4096) 64 = true → s.poisoned (c.loadAddr * 4096) 64 = false → s.descOk d = true → b = bitsOf d 183 140 * 4096 →
        Does .loadingChecks s (fun t => t = { s with ctxs := t.ctxs, clusters := t.clusters, hbm := t.hbm, poison := t.poison } ∧
          (∀ m, m ≠ n → t.ctx m = s.ctx m) ∧
          HbmOutside s t b 0x5000 ∧ t.hbmRead b 8 = 0x4A345341 * 2 ^ 32 + 2 ^ 24 ∧ t.hbmRead (b + 8) 16 = s.hbmRead (b + 8) 16 ∧
          t.hbmRead (b + 0x18) 8 = 0 ∧ (∀ i, i < 256 → (t.hbmRead (b + 0x1000 + 64 * i + 32) 8).testBit 63 = false) ∧
          t.ctx n = { addr := c.addr, st := .running, ovfb := bitsOf d 503 460, cstrict := d.testBit 416, prio := bitsOf d 415 412,
                      trapc := bitsOf d 411 400, hlog := bitsOf d 311 268, saveb := bitsOf d 183 140, pab := bitsOf d 119 92,
                      ptroot := bitsOf d 55 12, ovec := BitVec.ofNat 64 (bitsOf d 247 192),
                      budgets := { issue := bitsOf d 399 384, evict := bitsOf d 383 368, car := bitsOf d 367 352, link := bitsOf d 351 336,
                                   chuck := bitsOf d 335 320 },
                      queues := c.queues.map (fun p => (p.1, { en := true, ovf := p.2.ovf })),
                      frames := c.frames, puOvf := c.puOvf, pevictRes := c.pevictRes, inv := c.inv })) ∧
      (s.descOk d = false → Does .loadingChecks s (fun t => CtxIs s t n { c with st := .free, status := 3 }))) ∧
    (∀ len, c.st = .saving → UnitsIdle s → c.spilled = [] → c.toll = none → len = 0x2010000 + (sectionLengths s.ctl.free 0).sum →
      Does .saveWritten s (fun t =>
        (s.inMap c.saveArea len = true → (t.ctx n).st = .saved ∧ (t.ctx n).status = 0 ∧ HbmOutside s t c.saveArea len ∧
          t.hbmRead c.saveArea 8 = 0x4A345341 * 2 ^ 32 + 2 ^ 24 + (if c.compact then 1 else 2) ∧
          ∃ im, t.images = im :: s.images ∧ im.stamp = (t.ctx n).image ∧ im.area = c.saveArea ∧ im.ctx = n) ∧
        (s.inMap c.saveArea len = false → CtxIs s t n { c with st := .faulted, status := 4, live := [] }))) ∧
    (c.st = .restoring →
      (s.images = [] → Does .restoreComplete s (fun t => CtxIs s t n { c with st := c.before, status := 4 })) ∧
      (∀ im, s.images = [im] → s.imageAt c.saveArea im = true →
        (s.claimsHeld im = true → Does .restoreComplete s (fun t => CtxIs s t n { c with st := c.before, status := 5 })) ∧
        (s.claimsHeld im = false → im.cores = [] → im.lathes = [] → im.tiles = [] → im.versions = [] → im.launches = [] → im.mesh = [] →
          im.saved = [] → im.bal = [] → im.scalest = [] → im.fifos = [] →
          Does .restoreComplete s (fun t => t.hbm = s.hbm ∧ (t.ctx n).st = .running ∧ (t.ctx n).status = 0 ∧
            (t.ctx n).ptroot = im.c.ptroot ∧ (t.ctx n).hyps = im.c.hyps ∧ (t.ctx n).saveb = im.c.saveb ∧ (t.ctx n).trapc = im.c.trapc)))) ∧
    (c.st = .teardown → s.pagesBusy n = false → s.mgmt.spillRes ≠ 1 → (∀ p ∈ s.cores, p.2.fifo.waiting = []) →
      s.logRecords n = [] ∨ c.budgets.evict = 0xFFFF →
      Does .teardownComplete s (fun t => t.ctx n = c.torn ∧ (t.ctx n).st = .free ∧ (t.ctx n).tids = [] ∧ (t.ctx n).pins = [] ∧
        (t.ctx n).pages = [] ∧ ∀ k, (t.slot k).st = .free ∨ (t.slot k).ctx ≠ n))

/-- R92, R80 to R84, R100, R101, R110, R111, Table 5-4: a host's post enters its launch queue, or is dropped and sets ovf. Dispatch reads the record
at the head and its header, and takes it as the head, or drops it as a launch fault; a dependence that is read is met when its word has reached its
threshold; the first eligible head is dispatched: it leaves its queue, is launched under the next number, and every Lathe of its mask in a placed
cluster is bound and starts at the Lathe entry. At the start of a Tempo period each balance grows by its budget, to at most the budget. How dispatch reads, what its faults name and the order of heads
that tie (assumption 50), which fields of a record and header are looked at (assumptions 76 and 98) and that a dependence is polled whatever the
queue's en bit (assumption 84) are the model's choices. -/
def Obligations.LaunchEvents : Prop :=
  (∀ (ctx : BitVec 6) (q : BitVec 4) (r : BitVec 64) (s : State) (x : LaunchQueue), s.mgmt.boot = .ready →
    x = s.lqueue ctx.toNat q.toNat →
    (r.extractLsb' 56 8 = 0#8 → r.extractLsb' 0 6 = 0#6 → s.ctxRuns ctx.toNat = true → x.entries.length < 64 → x.parked = [] →
      Does (.lqpost ctx q r) s (fun t => SameMemory s t ∧ ∃ e, e.rec_ = r ∧ t.lqueue ctx.toNat q.toNat = { x with entries := x.entries ++ [e] })) ∧
    (r.extractLsb' 56 8 ≠ 0#8 ∨ r.extractLsb' 0 6 ≠ 0#6 ∨ s.ctxRuns ctx.toNat = false ∨ 64 ≤ x.entries.length ∨ x.parked ≠ [] →
      Does (.lqpost ctx q r) s (fun t => OnlyCtx s t ctx.toNat ∧ t.lqueue ctx.toNat q.toNat = { x with ovf := true }))) ∧
  (∀ (s : State) (n q : Nat) (x : LaunchQueue), n = s.ctl.at_.ctx → q = s.ctl.at_.q → x = s.lqueue n q → s.ctxRuns n = true →
    (∀ e rest r h l, x.en = true → x.head = none → x.entries = e :: rest → s.readHead n q e.rec_ = (s, .ok (r, some h)) →
      l = launchOf e.rec_ r h →
      (s.recordOk l r = true → headerOk l h = true → Does .launchHeadRead s (fun t => OnlyCtx s t n ∧
        t.lqueue n q = { x with head := some { l with met0 := l.dep0 == 0, met1 := l.dep1 == 0 }, fetched := [] })) ∧
      (x.parked = [] → s.recordOk l r = false ∨ headerOk l h = false → Does .launchHeadRead s (fun t =>
        (t.lqueue n q).entries = rest ∧ (t.lqueue n q).head = none))) ∧
    (∀ l bs, x.head = some l → l.met0 = false → l.met1 = true → s.launchRead n q l.dep0 8 = (s, .ok bs) →
      Does .dependencePoll s (fun t => OnlyCtx s t n ∧
        t.lqueue n q = { x with head := some { l with met0 := decide (l.thr0 ≤ leNat bs) }, fetched := [] }))) ∧
  (∀ (s : State) (c q : Nat) (r : LaunchRec) (o id : Nat) (bs : List Byte), s.firstHead = some (c, q, r, o) → (s.lqueue c q).parked = [] →
    s.launchReads c q (readPieces 64 (r.kimg + r.coff) (4 * r.csize)) = (s, .ok bs) → id = ((s.ctx c).seq + 1) * 64 + c →
    Does .dispatch s (fun t => (t.ctx c).seq = (s.ctx c).seq + 1 ∧ (t.lqueue c q).entries = (s.lqueue c q).entries.drop 1 ∧
      (t.lqueue c q).head = none ∧
      (∃ l, Map.find? t.launches id = some l ∧ l.ctx = c ∧ l.q = q ∧ l.r = r ∧ l.lathes = s.lathesFor r ∧ l.st = .loaded) ∧
      ∀ k ∈ s.lathesFor r, (t.lathe k).bound = some id ∧
        ((r.kimg + r.loff + r.lentry) % 4 = 0 → (t.lathe k).pc = BitVec.ofNat 56 (r.kimg + r.loff + r.lentry)))) ∧
  (∀ s : State,
    (s.cycle % 4096 = 0 → s.ctl.period < s.cycle / 4096 → Does .tempoPeriod s (fun t =>
      t = { s with ctl := t.ctl, clusters := t.clusters } ∧
      ∀ cl c b, Map.find? (s.cluster cl).bal c = some b → Map.find? (t.cluster cl).bal c = some
        { issue := min (b.issue + (s.ctx c).budgets.issue) (s.ctx c).budgets.issue
          chuck := min (b.chuck + (s.ctx c).budgets.chuck) (s.ctx c).budgets.chuck
          link := min (b.link + (s.ctx c).budgets.link) (s.ctx c).budgets.link
          car := min (b.car + (s.ctx c).budgets.car) (s.ctx c).budgets.car
          evict := min (b.evict + (s.ctx c).budgets.evict) (s.ctx c).budgets.evict })) ∧
    (s.cycle % 4096 ≠ 0 → exec .tempoPeriod s = .next s))

/-- R96, R97, R103 to R107, R121, R337, R338: a message that reaches a core waits behind those before it; the oldest is admitted to a free slot and
its thread begins (Table 8-2). A core with no message takes the top record of its deque: a task, or the first item of a range. An idle core takes
from its victim's bottom range the part from the split point on, or is refused. A core whose head message has waited 4,096 cycles with no slot free
spills the slot parked longest and admits the message; a spilled thread whose wait is over is sent back. SPILLCMD spills and readmits, or
refuses with result 3; that it spills an ACTIVE slot is the model's choice (assumption 83). Which free slot is taken is a free choice
(assumption 2). The model's choices are also which slot has been parked longest and may be spilled (assumption 48), in what order messages reach a core
and wait there (assumption 49), which cores are idle (assumption 59), since when a head message counts as waiting (assumption 71), where a pass of
probes that was cut off begins again (assumption 87), and what ends the wait of a spilled thread (assumption 88). -/
def Obligations.MessageEvents : Prop :=
  (∀ (s : State) (core : Nat) (m : Msg), core = s.ctl.at_.core → (waiting s core).any (fun x => !s.held x.ctx) = true →
    32 ≤ (s.core core).inbox.length ∨ (s.core core).ring = [] →
    s.ringRoom core m = true →
    (∀ p ∈ s.slots, p.2.wait ≠ .send m.stamp) → (∀ p ∈ s.clusters, p.2.xfers = []) →
    (s.mesh = [(core, m)] → (s.core core).meshWait = [] → Does .messageArrive s (fun t =>
      t.mesh = [] ∧ waiting t core = waiting s core ++ [m] ∧ t.slots = s.slots)) ∧
    ((s.core core).meshWait = [m] → Does .ringAccept s (fun t =>
      (t.core core).meshWait = [] ∧ waiting t core = waiting s core ++ [m] ∧ t.slots = s.slots))) ∧
  (∀ (s : State) (core : Nat) (m : Msg), core = s.ctl.at_.core → s.mesh = [(core, m)] → waiting s core = [] → (s.core core).meshWait = [] →
    s.ringRoom core m = true → (∀ p ∈ s.slots, p.2.wait ≠ .send m.stamp) → (∀ p ∈ s.clusters, p.2.xfers = []) →
    (s.freeSlots core = [] → Does .messageArrive s (fun t => t.mesh = [] ∧ waiting t core = [m] ∧ t.slots = s.slots)) ∧
    (∀ tid vs, s.freeSlots core ≠ [] → s.held m.ctx = false → m.kind = .send → m.hyp = 0 → m.trap = none → vs.length = 8 →
      m.g = vs.map fullReg → s.newTid m.ctx (core / 16) = some tid →
      Does .messageArrive s (fun t => t.mesh = [] ∧ Began s t core m.pc m.ctx 0 tid vs ∧ waiting t core = []))) ∧
  (∀ (s : State) (core tid : Nat), core = s.ctl.at_.core → s.freeSlots core ≠ [] →
    (∀ m rest vs, (s.core core).inbox = m :: rest → (s.core core).ring = [] → s.held m.ctx = false → m.kind = .send → m.hyp = 0 → m.trap = none →
      vs.length = 8 → m.g = vs.map fullReg → s.newTid m.ctx (core / 16) = some tid →
      Does .messageAdmit s (fun t => Began s t core m.pc m.ctx 0 tid vs ∧ waiting t core = rest)) ∧
    (∀ id l tc rest, s.messageWaits core = false → Map.find? s.launches id = some l → s.ctxRuns l.ctx = true →
      s.newTid l.ctx (core / 16) = some tid →
      (∀ pc pay, pay.length = 7 → (s.core core).deque = ⟨id, .task 0 pc pay, tc⟩ :: rest →
        Does .dequePop s (fun t => Began s t core pc l.ctx 0 tid (pay ++ [0]) ∧ (t.core core).deque = rest)) ∧
      (∀ f n, (s.core core).deque = ⟨id, .range f n, tc⟩ :: rest → 1 < n → l.r.args.length = 6 →
        Does .dequePop s (fun t => (t.core core).deque = ⟨id, .range (f + 1) (n - 1), tc⟩ :: rest ∧
          Began s t core (l.r.kimg + l.r.soff + l.r.sentry) l.ctx 0 tid (BitVec.ofNat 64 (l.r.workId f) :: l.r.rec_ :: l.r.args))))) ∧
  (∀ (s : State) (core v : Nat) (c : Core), core = s.ctl.at_.core → c = s.core core → s.idleCore core = true → v = victimOf core c.probe →
    (∀ id l f n p tc bef, v ≠ core → (s.core v).deque = bef ++ [⟨id, .range f n, tc⟩] → 1 < n → Map.find? s.launches id = some l →
      (s.core v).poppedAt ≠ some s.cycle → c.winOwner = none ∨ c.winOwner = some id → (s.core v).winOwner = some id → p = splitPoint l.r.exts f n →
      Does .stealProbe s (fun t => (t.core core).deque = [⟨id, .range p (f + n - p), tc⟩] ∧ (t.core core).winOwner = some id ∧
        (t.core v).deque = bef ++ [⟨id, .range f (p - f), tc⟩])) ∧
    ((s.core v).deque = [] → c.probe + 1 < 1023 → exec .stealProbe s = .next (s.setCore core { c with probe := c.probe + 1 }))) ∧
  (∀ (s : State) (core t0 k : Nat), core = s.ctl.at_.core → s.freeSlots core = [] → (s.core core).headSince = some t0 →
    t0 + 4096 ≤ s.cycle → s.longestParked core = some k → Spillable s k →
    ∃ u : State, exec .spill s = .next (u.admitOldest core k) ∧ WasSpilled s u k (s.spillAddr (s.slot k).ctx (s.slot k).tid) false) ∧
  (∀ (s : State) (n tid : Nat) (p : Spilled), n = s.ctl.at_.ctx → tid = s.ctl.at_.tid → Map.find? (s.ctx n).spilled tid = some p →
    p.onCommand = false → p.sent = false → s.ctxRuns n = true → ∀ u, s.spillOver n tid p = (u, true) →
    Does .spillReadmit s (fun t => Map.find? (t.ctx n).spilled tid = some { p with sent := true } ∧
      ∃ m, t.mesh = u.mesh ++ [(p.core, m)] ∧ m.kind = .restore ∧ m.pc = p.addr ∧ m.tid = tid ∧ m.ctx = n)) ∧
  (∀ (ctx : BitVec 6) (core : BitVec 12) (slot : BitVec 4) (tid : BitVec 16) (s : State) (k : Nat), s.mgmt.boot = .ready →
    s.mgmt.spillRes ≠ 1 → k = 16 * core.toNat + slot.toNat →
    ((s.slot k).st = .active ∨ (s.slot k).st = .parkedReg ∨ (s.slot k).st = .parkedWait → (s.slot k).ctx = ctx.toNat → (s.slot k).hnd = false →
      Spillable s k → Does (.spillcmdSpill ctx core slot) s (fun t =>
        t.mgmt.spillRes = 2 ∧ WasSpilled s t k (s.spillAddr (s.slot k).ctx (s.slot k).tid) true)) ∧
    ((s.slot k).st = .free ∨ (s.slot k).st = .migrating ∨ (s.slot k).ctx ≠ ctx.toNat ∨ (s.slot k).hnd = true →
      Does (.spillcmdSpill ctx core slot) s (fun t => t = { s with mgmt := t.mgmt } ∧ t.mgmt.spillRes = 3)) ∧
    (∀ p, Map.find? (s.ctx ctx.toNat).spilled tid.toNat = some p → p.sent = false → s.held ctx.toNat = false →
      Does (.spillcmdReadmit ctx tid) s (fun t => t.mgmt.spillRes = 2 ∧
        ∃ m, t.mesh = s.mesh ++ [(p.core, m)] ∧ m.kind = .restore ∧ m.pc = p.addr ∧ m.tid = tid.toNat)) ∧
    (Map.find? (s.ctx ctx.toNat).spilled tid.toNat = none →
      Does (.spillcmdReadmit ctx tid) s (fun t => t = { s with mgmt := t.mgmt } ∧ t.mgmt.spillRes = 3)))

/-- R116, R117, R119, R46, R48, R148: a fill lands in its register, and a slot that awaited it goes on; a direct write of a thread that does not
issue in this cycle
lands in an EMPTY register, its core's L1 emptied for the acquire (R63), or is refused and counted in its writer's RFREF; a slot at a barrier goes
on when the phase has changed; one at a notification word of module HBM, whose home slice holds its waiter entry, when a write has met its threshold,
and one at a word without an entry, here in scratchpad, when a poll finds it there; lines 4,096 cycles old leave the L1; an entry of the gathering buffer is performed.
R150 to R156, R163: the hypothesis unit takes up its requests in order; a toll commits the versions of a confirmed id and makes its threads the
root's, and orphans the threads of a refuted one. R122: an orphan restarts at its vector, or, without one, ends. R130, R304: a chime seals its tile;
a tile whose last read has ended is returned. When a late return is made (assumption 26), what an orphan keeps (assumption 29), that a toll acts in one
step (assumption 32) and when an entry is met (assumption 97) are the model's choices. -/
def Obligations.SlotEvents : Prop :=
  (∀ (s : State) (x : Slot), x = s.cur → s.mgmt.spillRes ≠ 1 →
    (∀ f rest, x.fills = f :: rest → f.reg = s.ctl.at_.reg → f.src = .ready → f.fault = none → x.leaving = false → x.wait = .none →
      Does .registerFill s (fun t => OnlySlot s t ∧ OtherRegs s t f.reg ∧ t.cur.reg f.reg = { st := .full, v := f.v, dep := f.dep } ∧
        t.cur.fills = rest ∧ t.cur.pc = x.pc ∧ (x.st = .active → t.cur.st = .active) ∧
        (x.st = .parkedReg → x.awaiting = [f.reg] → t.cur.st = .active))) ∧
    (∀ w tok, x.st = .parkedWait → x.wait = .bar w tok →
      (tok.toNat % 2 ^ 16 ≠ (s.barrier s.coreNo w.toNat).phase → s.ctl.at_.slot < 16 →
        Does .slotWake s (fun t => t.cur = { x with st := .active, wait := .none, pc := x.pc + 4 } ∧ SameMemory s t)) ∧
      (tok.toNat % 2 ^ 16 = (s.barrier s.coreNo w.toNat).phase → s.ctl.at_.slot < 16 → exec .slotWake s = .next s)) ∧
    (∀ va th sc, x.st = .parkedWait → x.wait = .nwait va th sc → s.ctl.at_.slot < 16 → s.key ∉ x.yieldFor →
      (∀ e, WaitersHomed s → s.resolve s.key va .read = .at_ (.hbm e.pa) → e ∈ (s.slice (homeSlice e.pa)).waiters → e.who = .slot s.key →
        e.met = true → Does .nwaitWake s (fun t => t.cur = { x with st := .active, wait := .none, pc := x.pc + 4 } ∧ SameMemory s t ∧
          ∀ n, ∀ f ∈ (t.slice n).waiters, f.who ≠ .slot s.key)) ∧
      (∀ off a, windowOf va = .scratch off → a = spAddr (s.coreNo / 16) off → s.spPoisoned a 8 = false → s.views = [] → s.links.reqs = [] →
        s.links.egress = [] → s.waiterOf (.slot s.key) = [] →
        (th.toNat ≤ leNat (Memory.readBytes s.sp a 8) → Does .nwaitPoll s (fun t =>
          t.cur = { x with st := .active, wait := .none, pc := x.pc + 4 } ∧ SameMemory s t)) ∧
        (leNat (Memory.readBytes s.sp a 8) < th.toNat → Does .nwaitPoll s (fun t => t.cur = x ∧ SameMemory s t))))) ∧
  (∀ (s : State) (core k : Nat) (c : Core) (w : DirectWrite), core = s.ctl.at_.core → c = s.core core → c.directWrites = [w] →
    s.directSlot core w = some k → s.directLater core w = false →
    (((s.slot k).reg w.reg).st = .empty → (∃ j tid, w.from_ = .slot j tid) → Does .directWrite s (fun t => (t.core core).directWrites = [] ∧
      (t.core core).l1 = [] ∧
      ((t.slot k).reg w.reg).st = .full ∧ ((t.slot k).reg w.reg).v = w.v ∧ (∀ r, r ≠ w.reg → (t.slot k).reg r = (s.slot k).reg r) ∧
      ∀ j, j ≠ k → t.slot j = s.slot j)) ∧
    (∀ j tid, ((s.slot k).reg w.reg).st ≠ .empty → w.from_ = .slot j tid → (s.slot j).st ≠ .free → (s.slot j).tid = tid →
      (s.slot j).ctx = w.ctx → Does .directWrite s (fun t => (t.core core).directWrites = [] ∧
        t.slot j = { s.slot j with rfref := min ((s.slot j).rfref + 1) 65535 } ∧ ∀ i, i ≠ j → t.slot i = s.slot i))) ∧
  (∀ (s : State) (core : Nat), core = s.ctl.at_.core →
    exec .l1LineExpiry s = .next (s.setCore core { s.core core with
      l1 := (s.core core).l1.filter (fun l => decide (s.cycle < l.filled + 4096)) }) ∧
    (∀ e, (s.core core).gather = [e] → List.Pairwise (fun p q => p.1 < q.1) e.bytes → e.hyp = 0 → e.tgt < 2 →
      Does .storeBufferDrain s (fun t => (t.core core).gather = [] ∧ t.sp = s.sp ∧ ∀ a,
        (e.tgt = 0 → Memory.readByte t.host a = Memory.readByte s.host a ∧
          Memory.readByte t.hbm a = ((Map.find? e.bytes (a - e.block)).filter (fun _ => decide (e.block ≤ a))).elim (Memory.readByte s.hbm a) (·.1)) ∧
        (e.tgt = 1 → Memory.readByte t.hbm a = Memory.readByte s.hbm a ∧
          Memory.readByte t.host a =
            ((Map.find? e.bytes (a - e.block)).filter (fun _ => decide (e.block ≤ a))).elim (Memory.readByte s.host a) (·.1))))) ∧
  (∀ (s : State) (n : Nat) (c : Ctx), n = s.ctl.at_.ctx → c = s.ctx n →
    (∀ k st p h rest, c.unitQ = .hnew k st p :: rest → (c.hyp p).st = .live → 1 ≤ h → h ≤ 255 → (c.hyp h).st = .free →
      (∀ j, 1 ≤ j → j < h → (c.hyp j).st ≠ .free) →
      Does .hypothesisTakeUp s (fun t => (t.ctx n).unitQ = rest ∧ ((t.ctx n).hyp h).st = .live ∧ ((t.ctx n).hyp h).parent = p ∧
        (∀ j, j ≠ h → (t.ctx n).hyp j = c.hyp j) ∧
        ∀ f, f ∈ (s.slot k).fills → f.src = .hypUnit st → { f with src := .ready, v := BitVec.ofNat 64 h } ∈ (t.slot k).fills)) ∧
    (∀ k id rest, c.unitQ = .hconf k id :: rest → c.toll = none → id ≠ 0 → (c.hyp id).st = .live → (c.hyp id).parent = 0 →
      Does .hypothesisTakeUp s (fun t => OnlyCtx s t n ∧ (t.ctx n).unitQ = rest ∧ ((t.ctx n).hyp id).st = .merging ∧
        (t.ctx n).toll = some { confirm := some id, refute := c.siblingsOf id, slot := k, tid := (s.slot k).tid } ∧
        ∀ h, h ∈ c.siblingsOf id → h ≠ id → h ≠ 0 → ((t.ctx n).hyp h).st = .refuting ∧ ((t.ctx n).hyp h).heir = 0)) ∧
    (∀ k id rest, c.unitQ = .href k id :: rest → c.toll = none → id ≠ 0 → (c.hyp id).st = .live →
      Does .hypothesisTakeUp s (fun t => OnlyCtx s t n ∧ (t.ctx n).unitQ = rest ∧
        (t.ctx n).toll = some { confirm := none, refute := c.liveUnder id, slot := k, tid := (s.slot k).tid } ∧
        ∀ h, h ∈ c.liveUnder id → ((t.ctx n).hyp h).st = .refuting ∧ ((t.ctx n).hyp h).heir = (c.hyp id).parent)) ∧
    (∀ id j, id ≠ 0 → s.cores = [] → s.logRecords n = [] → (s.slot j).st = .parkedWait → (s.slot j).hyp = 0 → (s.slot j).ctx = n →
      (∀ p ∈ s.slots, p.2.ctx = n → p.2.tid = (s.slot j).tid → p.1 = j) →
      (∃ b, (s.slot j).wait = .resolve id b) → (Map.find? c.hyps id).isSome = true →
      (∀ i v, c.toll = some { confirm := some id, refute := [], slot := j, tid := (s.slot j).tid } → s.slices = [(i, { dir := [v] })] →
        v.ctx = n → v.id = id →
        Does .tollComplete s (fun t => (t.ctx n).toll = none ∧ (t.slice i).dir = [] ∧
          (((t.ctx n).hyp id).st = .retired ∨ ((t.ctx n).hyp id).st = .free) ∧
          (∀ k, (s.slot k).st ≠ .free → (s.slot k).ctx = n → (s.slot k).hyp = id → (t.slot k).hyp = 0) ∧
          (t.slot j).st = .active ∧ (t.slot j).pc = (s.slot j).pc + 4 ∧
          (∀ b, b < 32 → Memory.readByte t.hbm (32 * v.sector + b) =
            if v.mask.getLsbD b then v.bytes.getD b 0 else Memory.readByte s.hbm (32 * v.sector + b)) ∧ HbmOutside s t (32 * v.sector) 32)) ∧
      (c.toll = some { confirm := none, refute := [id], slot := j, tid := (s.slot j).tid } → s.slices = [] →
        Does .tollComplete s (fun t => (t.ctx n).toll = none ∧ t.hbm = s.hbm ∧ (t.slot j).st = .active ∧ (t.slot j).pc = (s.slot j).pc + 4 ∧
          ∀ k, (s.slot k).st = .active → (s.slot k).ctx = n → (s.slot k).hyp = id → (s.slot k).leaving = false →
            (t.slot k).st = .orphaned ∧ (t.slot k).hyp = id ∧ (t.slot k).pc = (s.slot k).pc ∧ ((t.ctx n).hyp id).st = .dead)))) ∧
  (∀ (s : State) (x : Slot) (c : Ctx), x = s.cur → c = s.ctx x.ctx → x.st = .orphaned → s.ctl.at_.slot < 16 →
    (c.ovec ≠ 0 → Does .orphanRestart s (fun t => t.cur.st = .active ∧ (c.ovec.toNat % 4 = 0 → t.cur.pc = BitVec.ofNat 56 c.ovec.toNat) ∧ t.cur.hyp = c.heirOf x.hyp ∧
      t.cur.tid = x.tid ∧ t.cur.reg 0 = { st := .full, v := BitVec.ofNat 64 x.hyp } ∧
      (∀ r, 1 ≤ r → r ≤ 7 → t.cur.reg r = x.reg r) ∧ (∀ r, 8 ≤ r → (t.cur.reg r).st = .empty) ∧ SameMemory s t)) ∧
    (c.ovec = 0 → x.fills = [] → x.launch = none →
      Does .orphanRestart s (fun t => t.slot s.key = {} ∧ x.tid ∉ (t.ctx x.ctx).tids))) ∧
  (∀ (s : State) (k : Nat), k = tileKey s.ctl.at_.cluster s.ctl.at_.idx →
    (∀ d, (s.tile k).st = .open_ → (s.tile k).chimeAt = some d → d ≤ s.cycle → (s.tile k).postAfter ≤ s.cycle →
      s.boundIn (s.latheOf k) (s.tile k).ctx = true → (s.lathe (s.latheOf k)).hq.length < 64 → (s.lathe (s.latheOf k)).hqWait = [] →
      Does .chime s (fun t => (t.tile k).st = .queued ∧ (t.tile k).chimeAt = none ∧ SameMemory s t ∧
        ∃ e, (t.lathe (s.latheOf k)).hq = (s.lathe (s.latheOf k)).hq ++ [e] ∧ e.chime = true ∧ e.eos = false ∧ e.vcnt = (s.tile k).vcnt ∧
          e.handle = BitVec.ofNat 32 (handleOf (k / 1024) (k % 1024) (s.tile k).gen))) ∧
    ((s.tile k).returnLate = true → s.tileRead k = false → Does .tretAfterRead s (fun t =>
      (t.tile k).st = .free ∧ (t.tile k).gen = ((s.tile k).gen + 1) % 64 ∧
      ∀ j x, s.slots = [(j, x)] → x.st = .parkedWait → x.wait = .tret k (s.tile k).gen →
        t.slot j = { x with st := .active, wait := .none, pc := x.pc + 4 })))

/-- R179, R271: `pin` of a mapped page, a supervisor page too (assumption 39), adds 1 to the context's pin of it, which is counted by the page
(assumption 38), and returns 0; `unpin` takes 1 away and returns 0, or returns 2
where the context holds no pin. R169, R170, R172, R373: a walk that finds a leaf which permits the access sets its a bit, and d for a write,
marks the frames of an mk page, fills the TLB of its cluster and lets its slot issue again. R173: TLB invalidations end when no TLB holds
their translations.
R175 to R177, Tables 12-6, 12-7: a frame enters the ring or sets ovf; PEVICT is refused with 4 or 5 or begins an eviction; a fill that is done has
copied its backing copy into the frame and its entry is valid, referenced and clean; an eviction commits by clearing v, and a dirty page is first
written to its backing copy, then its frame returns to the ring. -/
def Obligations.PageEvents : Prop :=
  (∀ (d a : BitVec 5) (ta : BitVec 1) (s : State) (va lvl e0 e : Nat), va = (s.gr a).toNat % 2 ^ 56 → windowOf va = .global →
     s.walk s.cur.ctx va = .leaf lvl e0 e → (s.ctx s.cur.ctx).pages = [] →
     s.walkBusy (s.coreNo / 1024) s.cur.ctx va = false → s.cur.pfx = none →
     (Ready s (.pin d a ta) [a] [d] → Map.get (s.ctx s.cur.ctx).pins (pinKey lvl va) 0 < 65535 → (s.ctx s.cur.ctx).pins.length < 4096 →
       ∃ t, exec (.pin d a ta) s = .next t ∧ FillsReg s t d 0 ∧ SameMemory s t ∧
         Map.get (t.ctx s.cur.ctx).pins (pinKey lvl va) 0 = Map.get (s.ctx s.cur.ctx).pins (pinKey lvl va) 0 + 1) ∧
     (Ready s (.unpin d a ta) [a] [d] →
       (1 < Map.get (s.ctx s.cur.ctx).pins (pinKey lvl va) 0 →
         ∃ t, exec (.unpin d a ta) s = .next t ∧ FillsReg s t d 0 ∧ SameMemory s t ∧
           Map.get (t.ctx s.cur.ctx).pins (pinKey lvl va) 0 = Map.get (s.ctx s.cur.ctx).pins (pinKey lvl va) 0 - 1) ∧
       (Map.find? (s.ctx s.cur.ctx).pins (pinKey lvl va) = none →
         ∃ t, exec (.unpin d a ta) s = .next t ∧ FillsReg s t d 2 ∧ SameMemory s t))) ∧
  (∀ (ctx : BitVec 6) (vpn : BitVec 37) (frame : BitVec 35) (s : State) (n : Nat) (c : Ctx), s.mgmt.boot = .ready → n = ctx.toNat →
    c = s.ctx n →
    Does (.tlbinvPage ctx vpn) s (fun t => CtxIs s t n { c with inv := c.inv ++ [some vpn.toNat] }) ∧
    Does (.tlbinvContext ctx) s (fun t => CtxIs s t n { c with inv := c.inv ++ [none] }) ∧
    (s.residentEntry n vpn.toNat = none → Does (.pevict ctx vpn) s (fun t => CtxIs s t n { c with pevictRes := 4 })) ∧
    (∀ a e, s.residentEntry n vpn.toNat = some (a, e) → (s.mpage n vpn.toNat).st ≠ .evicting →
      (s.eligible a e = false → Does (.pevict ctx vpn) s (fun t => CtxIs s t n { c with pevictRes := 5 })) ∧
      (s.eligible a e = true → Does (.pevict ctx vpn) s (fun t => OnlyCtx s t n ∧ (t.ctx n).pevictRes = 1 ∧
        (t.mpage n vpn.toNat).st = .evicting ∧ (t.mpage n vpn.toNat).entry = a ∧ (t.mpage n vpn.toNat).forPevict = true))) ∧
    (c.pages = [] → c.frames.length < 256 → s.inMap (frame.toNat * 2 ^ 19) (2 ^ 19) = true →
      Does (.fpush ctx frame) s (fun t => CtxIs s t n { c with frames := c.frames ++ [frame.toNat] })) ∧
    (256 ≤ c.frames.length ∨ s.inMap (frame.toNat * 2 ^ 19) (2 ^ 19) = false →
      Does (.fpush ctx frame) s (fun t => CtxIs s t n { c with puOvf := true }))) ∧
  (∀ (s : State) (n : Nat) (c : Ctx), n = s.ctl.at_.ctx → c = s.ctx n →
    (∀ o, o ∈ c.inv → BuffersEmpty s → s.accessesAhead n = false →
      Does .tlbinvDone s (fun t => (t.ctx n).inv = [] ∧ SameMemory s t ∧ ∀ cl key,
        (o = none → key / 2 ^ 39 = n → Map.find? (t.cluster cl).tlb key = none ∧ Map.find? (t.die cl).tlb key = none) ∧
        (∀ v lvl, o = some v → 1 ≤ lvl → lvl ≤ 3 → key = tlbKey n lvl (v * 2 ^ 19) →
          Map.find? (t.cluster cl).tlb key = none ∧ Map.find? (t.die cl).tlb key = none))) ∧
    (∀ vpn die w r k lvl a e, vpn = s.ctl.at_.vpn → die = s.ctl.at_.die → (s.die die).walks = [w] → w.ctx = n → w.vpn = vpn →
      w.reqs = [r] → r.who = .slot k → r.kind = .access → (s.slot k).wait = .walk n vpn → s.walk n (vpn * 2 ^ 19) = .leaf lvl a e →
      s.pageAt a .evicting = none → (s.cluster r.cluster).tlb.length < 2048 → leafCheck (pteSv e) (pteW e) (pteX e) r.acc r.user false = none →
      Does .walkComplete s (fun t => t.slot k = { s.slot k with st := .active, wait := .none } ∧ (t.die die).walks = [] ∧
        t.hbmRead a 8 = pteTouched e r.acc ∧ HbmOutside s t a 8 ∧
        Map.find? (t.cluster r.cluster).tlb (tlbKey n lvl r.va) = some (tlbOfPte lvl (pteTouched e r.acc)) ∧
        (pteMk e = true → ∀ f, ptePa e / 2 ^ 19 ≤ f → f < ptePa e / 2 ^ 19 + 2 ^ (pageLog lvl - 19) → f ∈ t.marked))) ∧
    (∀ vpn p f, vpn = s.ctl.at_.vpn → c.pages = [(vpn, p)] → c.frames.length < 256 →
      (p.st = .filling → p.frame = some f → p.entry + 8 ≤ f * 2 ^ 19 ∨ (f + 1) * 2 ^ 19 ≤ p.entry → (∀ q ∈ s.slots, q.2.fills = []) →
        (∀ q ∈ s.dies, q.2.walks = []) →
        Does .pageFillDone s (fun t => (t.mpage n vpn).st = .resident ∧ t.host = s.host ∧
          (∀ x, x < 2 ^ 19 → Memory.readByte t.hbm (f * 2 ^ 19 + x) = Memory.readByte s.host (s.backing p.entry + x)) ∧
          t.hbmRead p.entry 8 = setBits (setBits (setBits (setBits (s.hbmRead p.entry 8) 0 0 1) 53 12 (f * 2 ^ 7)) 9 9 1) 10 10 0)) ∧
      (∀ a e, p.st = .evicting → s.residentEntry n vpn = some (a, e) → BuffersEmpty s → s.pinCount a = 0 → s.readsAhead (ptePa e) (2 ^ 19) = false →
        s.pageHasVersion (ptePa e) 19 = false → p.forPevict = true → p.forFill = none →
        (pteD e = false → Does .evictionCommit s (fun t => t.hbmRead a 8 = setBits e 0 0 0 ∧ HbmOutside s t a 8 ∧
          (t.mpage n vpn).st = .absent ∧ (t.ctx n).pevictRes = 2 ∧ (t.ctx n).frames = c.frames ++ [ptePa e / 2 ^ 19] ∧
          ∀ cl, Map.find? (t.cluster cl).tlb (tlbKey n 3 (vpn * 2 ^ 19)) = none)) ∧
        (pteD e = true → Does .evictionCommit s (fun t => t.hbmRead a 8 = setBits e 0 0 0 ∧ HbmOutside s t a 8 ∧
          (t.mpage n vpn).st = .writing ∧ (t.mpage n vpn).frame = some (ptePa e / 2 ^ 19)))) ∧
      (p.st = .writing → p.frame = some f → p.forPevict = true → p.forFill = none → p.forced = false → p.wanted = none →
        Does .writebackDone s (fun t => (t.mpage n vpn).st = .absent ∧ (t.ctx n).pevictRes = 2 ∧ (t.ctx n).frames = c.frames ++ [f] ∧
          t.hbm = s.hbm ∧ ∀ x, x < 2 ^ 19 → Memory.readByte t.host (s.backing p.entry + x) = Memory.readByte s.hbm (f * 2 ^ 19 + x)))))

/-- R98, R264 to R266: `cpush` puts the words of its four registers at the end of its core's Chuck FIFO, or, where the FIFO is full, traps
CHUCK_FULL in a strict context and otherwise parks behind those that wait there; `cstat` brings the state of the request of a name, or 0; `pbinv`
removes a block
from its cluster's cache. R318 to R321, R326: the Chuck takes the next FIFO's head; a request whose words break R320 ends MALFORMED; a COPY of one
element from scratchpad to scratchpad, its block cached, moves it; a transfer that is over sends its completion message or makes its direct write and
is DONE. R325: a clapper writes its row of the result tile; a lost byte ends its row with POISON. That a transfer's accesses are made at its
acceptance is the model's choice (assumption 30). -/
def Obligations.ChuckUnit : Prop :=
  (∀ (a : BitVec 5) (ta : BitVec 1) (s : State), Ready s (.cpush a ta) [a, a + 1, a + 2, a + 3] [] → Quiet s → s.ctl.at_.slot < 16 →
    s.coreNo < 4096 →
    ((s.core s.coreNo).fifo.entries.length < 16 →
      ∃ t q, exec (.cpush a ta) s = .next t ∧ WentOn s t ∧ (t.core s.coreNo).fifo.entries = (s.core s.coreNo).fifo.entries ++ [q] ∧
        q.w = [s.gr a, s.gr (a + 1), s.gr (a + 2), s.gr (a + 3)] ∧ q.ctx = s.cur.ctx ∧ q.hyp = s.cur.hyp ∧ q.tid = s.cur.tid) ∧
    (16 ≤ (s.core s.coreNo).fifo.entries.length → (s.ctx s.cur.ctx).cstrict = true → Handles s →
      ∃ t, exec (.cpush a ta) s = .next t ∧ TookTrap s t { cause := 14 } s.cur.pc) ∧
    (16 ≤ (s.core s.coreNo).fifo.entries.length → (s.ctx s.cur.ctx).cstrict = false →
      ∃ t q, exec (.cpush a ta) s = .next t ∧ t.cur.pc = s.cur.pc ∧ t.cur.st = .parkedWait ∧
        (t.core s.coreNo).fifo.waiting = (s.core s.coreNo).fifo.waiting ++ [(s.key, q)] ∧ q.w = [s.gr a, s.gr (a + 1), s.gr (a + 2), s.gr (a + 3)] ∧
        (t.core s.coreNo).fifo.entries = (s.core s.coreNo).fifo.entries ∧ SameMemory s t)) ∧
  (∀ (d a : BitVec 5) (ta : BitVec 1) (s : State), Ready s (.cstat d a ta) [a] [d] → (s.gr a).toNat < 2 ^ 16 →
    ((s.core s.coreNo).fifo.pushed = [] → ∃ t, exec (.cstat d a ta) s = .next t ∧ FillsReg s t d 0 ∧ SameMemory s t) ∧
    (∀ p rest, (s.core s.coreNo).fifo.pushed = p :: rest → p.xid = (s.gr a).toNat → p.discarded = false →
      ∃ t, exec (.cstat d a ta) s = .next t ∧ SameMemory s t ∧
        FillsReg s t d (BitVec.ofNat 64 ((if p.complete then 2 ^ 63 else 2 ^ 62) + (if p.refusedWrite then 2 ^ 61 else 0) + p.status)))) ∧
  (∀ (a : BitVec 5) (ta : BitVec 1) (s : State), Ready s (.pbinv a ta) [a] [] →
    ∃ t, exec (.pbinv a ta) s = .next t ∧ WentOn s t ∧ ∀ e, e ∈ (t.cluster (s.coreNo / 16)).pb ↔
      e ∈ (s.cluster (s.coreNo / 16)).pb ∧ ¬ (e.addr = (s.gr a).toNat % 2 ^ 56 / 128 * 128 ∧ e.ctx = s.cur.ctx)) ∧
  (∀ (s : State) (cl f : Nat) (q : Request) (rest : List Request), cl = s.ctl.at_.cluster → (s.cluster cl).xfers = [] →
    f = ((s.cluster cl).rr + 1) % 20 → s.headReady cl f = true → (s.fifo cl f).entries = q :: rest →
    (s.fifo cl f).waiting = [] → q.fifoNo = f → (∀ r ∈ rest, r.id ≠ q.id) →
    (q.wordsBad = true → Does .chuckAccept s (fun t => (t.fifo cl f).entries = rest ∧ (t.cluster cl).xfers = [] ∧
      SameMemory s t ∧ ∀ p, p ∈ (s.fifo cl f).pushed → p.id = q.id →
        { p with complete := true, status := 16, refusedWrite := false } ∈ (t.fifo cl f).pushed)) ∧
    (∀ e y o1 o2 a1 a2, q.wordsBad = false → q.op = 1 → q.fresh = false → (s.cluster cl).pb = [e] → e.addr = q.va 3 → e.ctx = q.ctx → e.hyp = q.hyp →
      q.va 3 % 128 = 0 → y = { id := 0, req := q, blk := e.words } → s.blockStatus cl y = none → (∀ i, i < 6 → y.cnt i = 1) →
      windowOf (q.va 1) = .scratch o1 → windowOf (q.va 2) = .scratch o2 → q.va 1 % q.es = 0 → q.va 2 % q.es = 0 →
      a1 = spAddr cl o1 → a2 = spAddr cl o2 → s.spPoison = [] → s.views = [] → Writable s a2 q.es →
      Does .chuckAccept s (fun t => (t.fifo cl f).entries = rest ∧ Stored s.sp t.sp a2 (Memory.readBytes s.sp a1 q.es) ∧ t.hbm = s.hbm ∧
        ∃ x, (t.cluster cl).xfers = [x] ∧ x.req = q ∧ x.status = 0 ∧ x.total = 1 ∧ x.pos = 1))) ∧
  (∀ (s : State) (cl k h : Nat) (x : Xfer), cl = s.ctl.at_.cluster → k = s.ctl.at_.idx → (s.cluster cl).xfers = [x] → x.id = s.ctl.at_.n →
    x.rows.contains k = true → h = x.req.word 2 →
    (s.sweepPoisoned x ((sweepSlices x.stripes).getD k 0) = true → x.status = 0 →
      Does .clapperRow s (fun t => SameMemory s t ∧ ∃ y, (t.cluster cl).xfers = [y] ∧ y.status = 10 ∧ y.reason = 0 ∧ y.rows = x.rows.erase k)) ∧
    (∀ b, s.sweepPoisoned x ((sweepSlices x.stripes).getD k 0) = false → s.sweepWaits cl x ((sweepSlices x.stripes).getD k 0) = false →
      s.handleCurrent x.req.ctx h = true → bitsOf h 31 24 = cl →
      b = s.partialRow (handleKey h) k ((pieces 64 (x.ntok + 1) (s.sweepTokens x ((sweepSlices x.stripes).getD k 0))).foldl
        (sweepGroup x (elemsOf x.req.es x.query 64)) {}) →
      PortTakes s (handleKey h) k 0 b.length → (s.tile (handleKey h)).vcnt + 1 < (s.tile (handleKey h)).target →
      Does .clapperRow s (fun t => Stored s.sp t.sp (rowAddr s (handleKey h) k 0) b ∧ t.hbm = s.hbm ∧
        (t.tile (handleKey h)).valid = (s.tile (handleKey h)).valid ||| BitVec.ofNat 128 (2 ^ k) ∧
        (t.tile (handleKey h)).vcnt = (s.tile (handleKey h)).vcnt + 1 ∧
        ∃ y, (t.cluster cl).xfers = [y] ∧ y.status = x.status ∧ y.rows = x.rows.erase k))) ∧
  (∀ (s : State) (cl res : Nat) (x : Xfer), cl = s.ctl.at_.cluster → (s.cluster cl).xfers = [x] → x.id = s.ctl.at_.n → x.sent = none →
    x.accepted = true → x.over = true → s.links.reqs = [] → s.links.egress = [] → x.req.quiet = false →
    res = x.req.op * 2 ^ 56 + x.req.xid * 2 ^ 32 + x.status →
    (x.req.dwr = false → x.req.lathe = none → s.noRoom x.req.core x.req.ctx = false → Does .transferComplete s (fun t =>
      (t.cluster cl).xfers = [] ∧ ∃ m, t.mesh = s.mesh ++ [(x.req.core, m)] ∧ m.kind = .completion ∧ m.pc = x.par 12 % 2 ^ 56 ∧
        m.ctx = x.req.ctx ∧ m.hyp = x.req.hyp ∧ m.g = [BitVec.ofNat 64 res, BitVec.ofNat 64 (x.stopAt.getD x.total), x.faddr,
          BitVec.ofNat 64 x.reason, BitVec.ofNat 64 (x.req.word 2), 0, 0, 0].map fullReg)) ∧
    (∀ core, x.req.dwr = true → core = bitsOf (x.par 12) 27 16 → s.fenced (core / 16) = false → Does .transferComplete s (fun t =>
      (t.cluster cl).xfers = [] ∧ ∃ w, (t.core core).directWrites = (s.core core).directWrites ++ [w] ∧ w.tid = x.par 12 % 2 ^ 16 ∧
        w.reg = bitsOf (x.par 12) 36 32 ∧ w.v = BitVec.ofNat 64 res ∧ w.ctx = x.req.ctx)))

/-- R187 to R198, R111, R112, Tables 13-2 to 13-5: a port trains when enabled, comes UP, DEGRADED or FENCED by the lanes that pass, and goes DOWN
when disabled. A flit with a good CRC brings its packets, one with a bad CRC asks for a replay. An operation leaves under a free tag with its
deadline.
A packet is admitted by window, map and mark, performed, and answered; a refused one is answered with its status. An answer or a deadline ends the
request and fills its register. The host attachment trains to its best mode; a host write is performed unless it touches a marked frame. The
lowest free tag is taken (assumption 10); what training and framing leave open is the model's choice (assumption 34). -/
def Obligations.LinkEvents : Prop :=
  (∀ (port : BitVec 6) (lanes : BitVec 4) (gen : BitVec 2) (s : State) (p : Nat) (x : Port), p = port.toNat → x = s.port p →
    (s.mgmt.boot = .ready → p < 36 →
      (x.st = .down → Does (.portEnable port) s (fun t => t = { s with links := t.links } ∧
        t.port p = { x with en := true, st := .training, trainAt := s.cycle })) ∧
      (x.st = .up ∨ x.st = .degraded → s.links.reqs = [] →
        Does (.portDisable port) s (fun t => t.port p = Stopped { x with en := false } .down))) ∧
    (x.st = .training → x.failed = 0 →
      (lanes = 15#4 → Does (.trainingDone port lanes gen) s (fun t => (t.port p).st = .up ∧ (t.port p).pair = 0 ∧
        (t.port p).gen = (if gen.getLsbD 1 then 1 else 0))) ∧
      (lanes ≠ 15#4 → lanes.extractLsb' 0 2 = 3#2 → Does (.trainingDone port lanes gen) s (fun t =>
        (t.port p).st = .degraded ∧ (t.port p).pair = 1)) ∧
      (lanes.extractLsb' 0 2 ≠ 3#2 → lanes.extractLsb' 2 2 = 3#2 → Does (.trainingDone port lanes gen) s (fun t =>
        (t.port p).st = .degraded ∧ (t.port p).pair = 2)) ∧
      (lanes.extractLsb' 0 2 ≠ 3#2 → lanes.extractLsb' 2 2 ≠ 3#2 → s.links.reqs = [] → Does (.trainingDone port lanes gen) s (fun t =>
        t.port p = Stopped x .fenced ∧ t.mgmt.logLinks = s.mgmt.logLinks + 1)))) ∧
  (∀ (s : State) (p : Nat), p = s.ctl.at_.port → (s.port p).st = .training → (s.port p).trainAt + 2 ^ 24 ≤ s.cycle → s.links.reqs = [] →
    Does .trainingTimeout s (fun t => t.port p = Stopped (s.port p) .fenced)) ∧
  (∀ (port : BitVec 6) (f : BitVec 2048) (lanes : BitVec 4) (s : State) (p : Nat) (x : Port), p = port.toNat → x = s.port p →
    x.carries = true → x.bad = none →
    (∀ h, flitGood f = true → flitKind f = 0 → flitSeq f = x.rxSeq → x.slots = [] → x.replay = [] → flitSlots f = h :: List.replicate 14 0 →
      h ≠ 0 → (packetOf h).op = 2 → (packetOf h).malformed (h.toNat % 2 ^ 12) = false →
      Does (.flitReceive port f lanes) s (fun t => t.port p = { x with rxSeq := (x.rxSeq + 1) % 4096, rx := x.rx ++ [packetOf h] })) ∧
    (flitGood f = false → Does (.flitReceive port f lanes) s (fun t =>
      t.port p = { x with bad := some lanes.toNat, out := x.out ++ [flitOf x.txSeq (x.rxSeq + 4095) 2 []] }))) ∧
  (∀ (s : State) (cl port : Nat) (e : Egress), cl = s.ctl.at_.cluster → s.links.egress = [e] → e.cluster = cl →
    (s.ctx e.ctx).budgets.link = 0xFFFF → s.portFor e.p = some port → s.links.reqs = [] → s.links.late = [] → (s.port port).room e.p = true →
    Does .linkEgress s (fun t => t.links.egress = [] ∧ t.port port = (s.port port).send 2 (Packet.slots { e.p with tag := 0 }) ∧
      t.links.reqs = [{ tag := 0, port := port, deadline := s.cycle + 2 ^ 22, ctx := e.ctx, key := e.key, p := { e.p with tag := 0 },
                        who := e.who }])) ∧
  (∀ (s : State) (port : Nat) (q : Packet) (rest : List Packet), port = s.ctl.at_.port → Arrived s port q rest →
    (q.op = 1 →
      (s.admission q = 0 → Does .linkWrite s (fun t => RespondsWith s t port q rest 0 [] ∧ Stored s.hbm t.hbm q.addr q.pay)) ∧
      (∀ st, s.admission q = st → st ≠ 0 → Does .linkWrite s (fun t => RespondsWith s t port q rest st [] ∧ t.hbm = s.hbm))) ∧
    (q.op = 2 → s.admission q = 0 →
      (s.poisoned q.addr (q.len + 1) = false → Does .linkRead s (fun t => t.hbm = s.hbm ∧
        RespondsWith s t port q rest 0 (Memory.readBytes s.hbm q.addr (q.len + 1)))) ∧
      (s.poisoned q.addr (q.len + 1) = true → Does .linkRead s (fun t => t.hbm = s.hbm ∧ RespondsWith s t port q rest 10 []))) ∧
    (q.op = 3 → q.flags = 2 → s.admission q = 0 → BuffersEmpty s → s.poisoned q.addr 8 = false →
      Does .linkAmo s (fun t => RespondsWith s t port q rest 0 (Memory.readBytes s.hbm q.addr 8) ∧
        Stored s.hbm t.hbm q.addr (leBytes 8 (s.hbmRead q.addr 8 + leNat (q.pay.take 8))))) ∧
    (q.op = 4 → s.admission q = 0 → BuffersEmpty s → s.poisoned q.addr 8 = false →
      Does .linkNotify s (fun t => RespondsWith s t port q rest 0 [] ∧
        Stored s.hbm t.hbm q.addr (leBytes 8 (s.hbmRead q.addr 8 + leNat (q.pay.take 8))))) ∧
    (∀ h row off, q.op = 5 → s.admission q = 0 → h = q.addr % 2 ^ 32 → row = bitsOf q.addr 38 32 → off = bitsOf q.addr 55 41 →
      s.handleCurrent q.ctx h = true → PortTakes s (handleKey h) row off q.pay.length → (s.tile (handleKey h)).target = 0 →
      Does .tilewr s (fun t => RespondsWith s t port q rest 0 [] ∧ Stored s.sp t.sp (rowAddr s (handleKey h) row off) q.pay ∧
        (t.tile (handleKey h)).valid = (if q.flags.testBit 0 then (s.tile (handleKey h)).valid ||| BitVec.ofNat 128 (2 ^ row)
          else (s.tile (handleKey h)).valid))) ∧
    (∀ r k reg conv fa pc f, q.op = 0x20 → s.links.reqs = [r] → r.port = port → r.tag = q.tag → s.cycle < r.deadline →
      r.who = .load k reg conv fa pc →
      f ∈ (s.slot k).fills → f.reg = reg → f.src = .link r.key →
      Does .resp s (fun t => t.links.reqs = [] ∧ (t.port port).rx = rest ∧
        (q.status = 0 → { f with src := .ready, v := convWord conv q.pay.length (leNat q.pay), dep := s.cycle } ∈ (t.slot k).fills) ∧
        (q.status ≠ 0 → { f with src := .ready, v := 0, dep := s.cycle, fault := some (remoteFault q.status fa (BitVec.ofNat 56 pc)) }
          ∈ (t.slot k).fills)))) ∧
  (∀ (s : State) (r : LinkReq) (k reg : Nat) (conv : Conv) (fa : Word64) (pc : Nat) (f : Fill), s.links.reqs = [r] → r.deadline ≤ s.cycle →
    r.who = .load k reg conv fa pc → f ∈ (s.slot k).fills → f.reg = reg → f.src = .link r.key →
    Does .linkRequestTimeout s (fun t => t.links.reqs = [] ∧
      { f with src := .ready, v := 0, dep := s.cycle, fault := some (remoteFault 9 fa (BitVec.ofNat 56 pc)) } ∈ (t.slot k).fills)) ∧
  (∀ (modes : BitVec 5) (addr : BitVec 44) (n : Nat) (data : List Byte) (s : State),
    (modes.getLsbD 4 = true → exec (.hostLinkTrain modes) s = .next { s with hostMode := some .cxl31 }) ∧
    (modes = 0 → exec (.hostLinkTrain modes) s = .next { s with hostMode := none }) ∧
    exec (.hostMemAccess false addr n data) s = .next s ∧
    (s.hostMode.isSome = true → s.mgmt.boot = .ready → s.inMap addr.toNat (data.take n).length = true →
      (s.rangeMarked addr.toNat (data.take n).length = false →
        Does (.hostMemAccess true addr n data) s (fun t => Stored s.hbm t.hbm addr.toNat (data.take n))) ∧
      (s.rangeMarked addr.toNat (data.take n).length = true → exec (.hostMemAccess true addr n data) s = .next s)))

/-- R70, R198, R336, R362 to R370, Tables 20-5, 27-1 to 27-5: a BAR0 write of a CCTL command is that command's event, LTOL, PCAP and LMOD take their
fields, and before READY only the management block is written. A module reset leaves the reset state with the flash log's clusters and frames
applied; verification ends READY or BOOTFAIL. A report leaves the nonce and ends with result 2. The mark unit accepts a job, sets ovf while it is
busy,
or refuses; a job that is done has written its frame, or status 2. Measured temperatures are shown, an interval over a limit is counted, 110 °C,
measured or tripped,
removes the load; an idle module enters the deepest state within LTOL and leaves it. An error counts, or poisons its sector, logs its frame or
cluster, and
faults the context it struck. The image in the boot flash, the fuses and the cryptography are constants without a body (assumption 9); what the
registers and the mark
unit leave open is the model's choice (assumption 35). -/
def Obligations.ManagementEvents : Prop :=
  (∀ (off : Nat) (v : BitVec 64) (ctx : BitVec 6) (s : State),
    (off = 0x70018 → exec (.registerWrite off v) s = .next { s with mgmt := { s.mgmt with ltol := (v.extractLsb' 0 32).toNat } }) ∧
    (off = 0x70028 → 1000 ≤ (v.extractLsb' 0 16).toNat → (v.extractLsb' 0 16).toNat ≤ 3600 →
      exec (.registerWrite off v) s = .next { s with mgmt := { s.mgmt with pcap := (v.extractLsb' 0 16).toNat } }) ∧
    (off = 0x70028 → (v.extractLsb' 0 16).toNat < 1000 ∨ 3600 < (v.extractLsb' 0 16).toNat → exec (.registerWrite off v) s = .next s) ∧
    (s.mgmt.boot ≠ .ready → off < 0x70000 → exec (.registerWrite off v) s = .next s) ∧
    (s.mgmt.boot = .ready → off = 0x40800 →
      exec (.registerWrite off v) s = .next { s with links := { s.links with lmod := (v.extractLsb' 0 10).toNat } }) ∧
    (s.mgmt.boot = .ready → off = 0x10000 + 0x40 * ctx.toNat →
      (v.extractLsb' 56 8 = 1#8 → exec (.registerWrite off v) s = exec (.load ctx (v.extractLsb' 12 44)) s) ∧
      (v.extractLsb' 56 8 = 2#8 → exec (.registerWrite off v) s = exec (.save ctx (v.extractLsb' 12 44)) s) ∧
      (v.extractLsb' 56 8 = 3#8 → exec (.registerWrite off v) s = exec (.force ctx (v.extractLsb' 12 44)) s) ∧
      (v.extractLsb' 56 8 = 4#8 → exec (.registerWrite off v) s = exec (.restore ctx (v.extractLsb' 12 44)) s) ∧
      (v.extractLsb' 56 8 = 5#8 → exec (.registerWrite off v) s = exec (.teardown ctx (v.extractLsb' 12 44)) s))) ∧
  (∀ s : State,
    (s.mgmt.boot ≠ .verify → Does .moduleReset s (fun t => t.mgmt.boot = .verify ∧ t.mgmt.fences = s.mgmt.logFence ∧
      t.mgmt.retired = s.mgmt.logRetire ∧
      t.mgmt.pcap = 3600 ∧ t.slots = [] ∧ t.ctxs = [] ∧ t.marked = [] ∧ t.cycle = 0 ∧ t.host = s.host ∧ t.mgmt.off = false)) ∧
    (s.mgmt.boot = .verify → Does .firmwareVerify s (fun t =>
      (firmwareOk = true → t.mgmt.boot = .ready ∧ t.links.lmod = Config.moduleNumber.toNat) ∧
      (firmwareOk = false → t = { s with mgmt := { s.mgmt with boot := .bootfail } }))) ∧
    (s.mgmt.boot ≠ .verify → exec .firmwareVerify s = .next s)) ∧
  (∀ (addr : BitVec 44) (s : State),
    (s.mgmt.attRes = 1 → exec (.attreqStart addr) s = .next s) ∧
    (s.mgmt.attRes ≠ 1 → s.mgmt.boot = .ready → s.inMap (addr.toNat * 4096) 4096 = true → exec (.attreqStart addr) s =
      .next { s with mgmt := { s.mgmt with attAddr := addr.toNat, attBuf := addr.toNat, attRes := 1 } }) ∧
    (s.mgmt.attRes ≠ 1 → s.inMap (addr.toNat * 4096) 4096 = false → Does (.attreqStart addr) s (fun t => t.mgmt.attRes = 3)) ∧
    (s.mgmt.attRes = 1 → Does .attestationDone s (fun t => t.mgmt.attRes = 2 ∧ HbmOutside s t (s.mgmt.attBuf * 4096 + 0x20) 0xFE0 ∧
      Memory.readBytes t.hbm (s.mgmt.attBuf * 4096 + 0xA8) 32 = leBytes 32 s.mgmt.fences.toNat))) ∧
  (∀ (desc : BitVec 50) (s : State) (a : Nat), a = desc.toNat * 64 →
    (s.mgmt.mkState = 1 → exec (.mkpost desc) s = .next { s with mgmt := { s.mgmt with mkOvf := true } }) ∧
    (s.mgmt.mkState ≠ 1 → s.inMap a 64 = false → Does (.mkpost desc) s (fun t =>
      t = { s with mgmt := t.mgmt } ∧ t.mgmt.mkState = 3 ∧ t.mgmt.mkStatus = 1 ∧ t.mgmt.mkJob = none)) ∧
    (∀ j m u, s.mgmt.mkState ≠ 1 → s.inMap a 64 = true → s.poisoned a 64 = false →
      j = { words := (List.range 8).map (fun i => BitVec.ofNat 64 (s.hbmRead (a + 8 * i) 8)) } → j.fieldsOk = true →
      s.ctxRuns j.ctx = true → s.markWaits j = false → s.markPages j (numsFrom 0 j.rows) = (u, some m) →
      Does (.mkpost desc) s (fun t => t.hbm = u.hbm ∧ t.marked = u.marked ∧ t.mgmt.mkState = 1 ∧ t.mgmt.mkStatus = 0 ∧
        ∃ k, t.mgmt.mkJob = some k ∧ k.words = j.words ∧ k.pages = m))) ∧
  (∀ (s : State) (j : MarkJob), s.mgmt.mkState = 1 → s.mgmt.mkJob = some j → j.waits = false →
    Does (.markJobComplete false) s (fun t => t.hbm = s.hbm ∧ t.mgmt.mkState = 3 ∧ t.mgmt.mkStatus = 2 ∧ t.mgmt.mkJob = none) ∧
    (∀ fr, j.old = s.markSource j → fr = j.frame s.mgmt.mkKey j.old → j.word 3 + fr.length ≤ j.word 4 →
      Does (.markJobComplete true) s (fun t => t.hbm = s.hbm ∧ t.mgmt.mkState = 2 ∧ t.mgmt.mkStatus = 0 ∧ t.mgmt.mkJob = none ∧
        Memory.readBytes t.host (j.word 3) fr.length = fr))) ∧
  (∀ (power : BitVec 16) (temps : BitVec 64) (s : State),
    Does (.throttleInterval power temps) s (fun t => t = { s with mgmt := t.mgmt } ∧ t.mgmt.tsens = temps ∧
      (s.mgmt.pcap < power.toNat ∨ (∃ i, i < 4 ∧ 380 < dieTemp temps i) → t.mgmt.thr = min (s.mgmt.thr + 1) (2 ^ 32 - 1)) ∧
      (power.toNat ≤ s.mgmt.pcap → (∀ i, i < 4 → dieTemp temps i ≤ 380) → t.mgmt.thr = s.mgmt.thr) ∧
      ((∃ i, i < 4 ∧ 440 ≤ dieTemp temps i) → t.mgmt.off = true) ∧ ((∀ i, i < 4 → dieTemp temps i < 440) → t.mgmt.off = s.mgmt.off)) ∧
    Does (.thermalTrip temps) s (fun t => t = { s with mgmt := t.mgmt } ∧ t.mgmt.tsens = temps ∧
      ((∃ i, i < 4 ∧ 440 ≤ dieTemp temps i) → t.mgmt.off = true)) ∧
    (s.mgmt.boot = .ready → s.idle = true → Does .idleEntry s (fun t => t = { s with mgmt := { s.mgmt with idle := t.mgmt.idle } } ∧
      t.mgmt.idle = (if 400000 ≤ s.mgmt.ltol then 4 else if 40000 ≤ s.mgmt.ltol then 3 else if 5000 ≤ s.mgmt.ltol then 2
        else if 500 ≤ s.mgmt.ltol then 1 else 0))) ∧
    (s.idle = false → exec .idleEntry s = .next s ∧ exec .idleExit s = .next { s with mgmt := { s.mgmt with idle := 0 } })) ∧
  (∀ (s : State) (a : Nat) (core : BitVec 12) (slot : BitVec 4) (x : Slot), x = s.slot (16 * core.toNat + slot.toNat) →
    (s.mgmt.softHbm < 2 ^ 32 → exec (.errorRetry (.hbm a) true) s =
      .next { s with mgmt := { s.mgmt with softHbm := min (s.mgmt.softHbm + 1) (2 ^ 32 - 1) } }) ∧
    (a < 2 ^ 39 → Does (.errorRetry (.hbm a) false) s (fun t => a / 32 ∈ t.poison ∧ a / 2 ^ 19 ∈ t.mgmt.logRetire ∧ t.hbm = s.hbm)) ∧
    (x.st ≠ .free → (s.ctx x.ctx).st = .running → Does (.errorRetry (.slotReg core slot) false) s (fun t =>
      (t.ctx x.ctx).st = .faulted ∧ t.mgmt.logFence.getLsbD (core.toNat / 16) = true)))
end

