-- ==== Sys2Proof/Laws/Maps.lean ====
section
/-! SUPPORT. What the operations on maps and on byte memories do, and that they keep the canonical form. -/

namespace Sys2Proof.Machine

/-! ### Maps -/

namespace Map

variable {α : Type}

@[simp] theorem find?_nil (k : Nat) : find? ([] : Map α) k = none := rfl

@[simp] theorem find?_set_self (m : Map α) (k : Nat) (v : α) : find? (set m k v) k = some v := by
  induction m with
  | nil => simp [set, find?]
  | cons p r ih =>
    obtain ⟨k', v'⟩ := p
    simp only [set]
    split
    · simp [find?]
    · split
      · simp [find?]
      · simp [find?, *]

theorem find?_set_ne (m : Map α) {k k' : Nat} (v : α) (h : k' ≠ k) : find? (set m k v) k' = find? m k' := by
  induction m with
  | nil => simp [set, find?, h]
  | cons p r ih =>
    obtain ⟨k2, v2⟩ := p
    simp only [set]
    split
    · simp [find?, h]
    · split
      · rename_i h2; subst h2; simp [find?, h]
      · simp only [find?, ih]

@[simp] theorem find?_erase_self (m : Map α) (k : Nat) : find? (erase m k) k = none := by
  induction m with
  | nil => rfl
  | cons p r ih =>
    obtain ⟨k', v'⟩ := p
    simp only [erase]
    split
    · exact ih
    · simp [find?, *]

theorem find?_erase_ne (m : Map α) {k k' : Nat} (h : k' ≠ k) : find? (erase m k) k' = find? m k' := by
  induction m with
  | nil => rfl
  | cons p r ih =>
    obtain ⟨k2, v2⟩ := p
    simp only [erase]
    split
    · rename_i h2; subst h2; simp [find?, h, ih]
    · simp only [find?, ih]

/-- What holds of every listed value and of the default holds of what a map gives. -/
theorem get_of_all {P : α → Prop} {m : Map α} {d : α} (hd : P d) (h : ∀ e ∈ m, P e.2) (k : Nat) : P (get m k d) := by
  induction m with
  | nil => exact hd
  | cons e r ih =>
    have hr := ih (fun x hx => h x (.tail _ hx))
    simp only [get, find?] at hr ⊢
    split
    · exact h e (.head _)
    · exact hr

@[simp] theorem get_nil (k : Nat) (d : α) : get ([] : Map α) k d = d := rfl

@[simp] theorem get_set_self (m : Map α) (k : Nat) (v d : α) : get (set m k v) k d = v := by simp [get]

theorem get_set_ne (m : Map α) {k k' : Nat} (v d : α) (h : k' ≠ k) : get (set m k v) k' d = get m k' d := by
  simp [get, find?_set_ne m v h]

theorem get_set (m : Map α) (k k' : Nat) (v d : α) : get (set m k v) k' d = if k' = k then v else get m k' d := by
  split
  · next h => subst h; simp
  · next h => exact get_set_ne m v d h

@[simp] theorem get_erase_self (m : Map α) (k : Nat) (d : α) : get (erase m k) k d = d := by simp [get]

theorem get_erase_ne (m : Map α) {k k' : Nat} (d : α) (h : k' ≠ k) : get (erase m k) k' d = get m k' d := by
  simp [get, find?_erase_ne m h]

end Map

/-! ### Bytes of a memory -/

namespace Memory

@[simp] theorem readByte_nil (a : Nat) : readByte [] a = 0 := rfl

@[simp] theorem readByte_writeByte_self (m : Memory) (a : Nat) (b : Byte) : readByte (writeByte m a b) a = b := by
  unfold readByte writeByte
  split <;> simp [*]

theorem readByte_writeByte_ne (m : Memory) {a a' : Nat} (b : Byte) (h : a' ≠ a) :
    readByte (writeByte m a b) a' = readByte m a' := by
  unfold readByte writeByte
  split
  · exact Map.get_erase_ne m 0 h
  · exact Map.get_set_ne m b 0 h

/-- A write leaves every byte outside it alone. -/
theorem readByte_writeBytes_outside (bs : List Byte) (m : Memory) (a x : Nat) (h : x < a ∨ a + bs.length ≤ x) :
    readByte (writeBytes m a bs) x = readByte m x := by
  induction bs generalizing m a with
  | nil => rfl
  | cons b r ih =>
    simp only [List.length_cons] at h
    rw [writeBytes, ih _ _ (by omega), readByte_writeByte_ne _ _ (by omega)]

/-- A byte that a write covers reads as the byte written. -/
theorem readByte_writeBytes_inside (bs : List Byte) (m : Memory) (a i : Nat) (h : i < bs.length) :
    readByte (writeBytes m a bs) (a + i) = bs[i] := by
  induction bs generalizing m a i with
  | nil => simp at h
  | cons b r ih =>
    cases i with
    | zero => simp [writeBytes, readByte_writeBytes_outside]
    | succ j =>
      have hj : j < r.length := by simpa using h
      have := ih (writeByte m a b) (a + 1) j hj
      rw [show a + (j + 1) = a + 1 + j by omega]
      simpa [writeBytes] using this

@[simp] theorem length_readBytes (m : Memory) (a n : Nat) : (readBytes m a n).length = n := by
  induction n generalizing a with
  | zero => rfl
  | succ n ih => simp [readBytes, ih]

/-- A read of the bytes just written gives them. -/
theorem readBytes_writeBytes (bs : List Byte) (m : Memory) (a : Nat) : readBytes (writeBytes m a bs) a bs.length = bs := by
  have key : ∀ (n k : Nat), k + n = bs.length → readBytes (writeBytes m a bs) (a + k) n = bs.drop k := by
    intro n
    induction n with
    | zero => intro k h; simp [readBytes, List.drop_of_length_le (show bs.length ≤ k by omega)]
    | succ n ih =>
      intro k h
      have hk : k < bs.length := by omega
      rw [readBytes, readByte_writeBytes_inside bs m a k hk, show a + k + 1 = a + (k + 1) by omega, ih (k + 1) (by omega)]
      exact (List.drop_eq_getElem_cons hk).symm
  simpa using key bs.length 0 (by omega)

/-- A read of bytes that a write does not meet is unchanged. -/
theorem readBytes_writeBytes_apart (bs : List Byte) (m : Memory) (a x n : Nat) (h : x + n ≤ a ∨ a + bs.length ≤ x) :
    readBytes (writeBytes m a bs) x n = readBytes m x n := by
  induction n generalizing x with
  | zero => rfl
  | succ n ih => rw [readBytes, readBytes, readByte_writeBytes_outside _ _ _ _ (by omega), ih (x + 1) (by omega)]

/-! ### The canonical form -/

theorem wfFrom_le {m : Memory} {lo lo' : Nat} (h : lo' ≤ lo) (w : wfFrom lo m = true) : wfFrom lo' m = true := by
  cases m with
  | nil => rfl
  | cons p r =>
    obtain ⟨a, b⟩ := p
    simp only [wfFrom, Bool.and_eq_true, decide_eq_true_eq] at w ⊢
    exact ⟨⟨by omega, w.1.2⟩, w.2⟩

theorem wfFrom_erase (m : Memory) (lo k : Nat) (w : wfFrom lo m = true) : wfFrom lo (Map.erase m k) = true := by
  induction m generalizing lo with
  | nil => rfl
  | cons p r ih =>
    obtain ⟨a, b⟩ := p
    simp only [wfFrom, Bool.and_eq_true, decide_eq_true_eq] at w
    simp only [Map.erase]
    split
    · exact wfFrom_le (by omega) (ih _ w.2)
    · simp only [wfFrom, Bool.and_eq_true, decide_eq_true_eq]
      exact ⟨w.1, ih _ w.2⟩

theorem wfFrom_set (m : Memory) (lo k : Nat) (b : Byte) (hb : b ≠ 0) (hk : lo ≤ k) (w : wfFrom lo m = true) :
    wfFrom lo (Map.set m k b) = true := by
  induction m generalizing lo with
  | nil =>
    simp only [Map.set, wfFrom, Bool.and_true, Bool.and_eq_true, decide_eq_true_eq]
    exact ⟨hk, hb⟩
  | cons p r ih =>
    obtain ⟨a, c⟩ := p
    simp only [wfFrom, Bool.and_eq_true, decide_eq_true_eq] at w
    simp only [Map.set]
    split
    · simp only [wfFrom, Bool.and_eq_true, decide_eq_true_eq]
      exact ⟨⟨hk, hb⟩, ⟨by omega, w.1.2⟩, w.2⟩
    · split
      · rename_i h; subst h
        simp only [wfFrom, Bool.and_eq_true, decide_eq_true_eq]
        exact ⟨⟨hk, hb⟩, w.2⟩
      · simp only [wfFrom, Bool.and_eq_true, decide_eq_true_eq]
        exact ⟨w.1, ih _ (by omega) w.2⟩

theorem wf_writeByte (m : Memory) (a : Nat) (b : Byte) (w : wf m = true) : wf (writeByte m a b) = true := by
  unfold writeByte
  split
  · exact wfFrom_erase m 0 a w
  · next h => exact wfFrom_set m 0 a b h (Nat.zero_le a) w

/-- Every write keeps the canonical form. -/
theorem wf_writeBytes (bs : List Byte) (m : Memory) (a : Nat) (w : wf m = true) : wf (writeBytes m a bs) = true := by
  induction bs generalizing m a with
  | nil => exact w
  | cons b r ih => exact ih _ _ (wf_writeByte m a b w)

@[simp] theorem wf_nil : wf [] = true := rfl

theorem readByte_below {m : Memory} {lo a : Nat} (w : wfFrom lo m = true) (h : a < lo) : readByte m a = 0 := by
  induction m generalizing lo with
  | nil => rfl
  | cons p r ih =>
    obtain ⟨k, b⟩ := p
    simp only [wfFrom, Bool.and_eq_true, decide_eq_true_eq] at w
    have := ih w.2 (by omega)
    simpa [readByte, Map.get, Map.find?, show a ≠ k by omega] using this

theorem ext_from {m m' : Memory} {lo : Nat} (w : wfFrom lo m = true) (w' : wfFrom lo m' = true)
    (h : ∀ a, readByte m a = readByte m' a) : m = m' := by
  induction m generalizing m' lo with
  | nil =>
    cases m' with
    | nil => rfl
    | cons p r =>
      obtain ⟨k, b⟩ := p
      simp only [wfFrom, Bool.and_eq_true, decide_eq_true_eq] at w'
      exact absurd (by simpa [readByte, Map.get, Map.find?] using (h k).symm) w'.1.2
  | cons p r ih =>
    obtain ⟨k, b⟩ := p
    simp only [wfFrom, Bool.and_eq_true, decide_eq_true_eq] at w
    have hk : readByte ((k, b) :: r) k = b := by simp [readByte, Map.get, Map.find?]
    cases m' with
    | nil => exact absurd (by simpa [readByte, Map.get, Map.find?] using h k) w.1.2
    | cons p' r' =>
      obtain ⟨k', b'⟩ := p'
      simp only [wfFrom, Bool.and_eq_true, decide_eq_true_eq] at w'
      have hk' : readByte ((k', b') :: r') k' = b' := by simp [readByte, Map.get, Map.find?]
      have e : k = k' := by
        rcases Nat.lt_trichotomy k k' with lt | eq | gt
        · have z : readByte ((k', b') :: r') k = 0 := by
            have := readByte_below w'.2 (show k < k' + 1 by omega)
            simpa [readByte, Map.get, Map.find?, show k ≠ k' by omega] using this
          exact absurd (by rw [← hk, h k, z]) w.1.2
        · exact eq
        · have z : readByte ((k, b) :: r) k' = 0 := by
            have := readByte_below w.2 (show k' < k + 1 by omega)
            simpa [readByte, Map.get, Map.find?, show k' ≠ k by omega] using this
          exact absurd (by rw [← hk', ← h k', z]) w'.1.2
      subst e
      have eb : b = b' := by rw [← hk, h k, hk']
      subst eb
      have er : r = r' := by
        apply ih w.2 w'.2
        intro a
        by_cases ha : a = k
        · subst ha
          rw [readByte_below w.2 (by omega), readByte_below w'.2 (by omega)]
        · have := h a
          simpa [readByte, Map.get, Map.find?, ha] using this
      rw [er]

/-- Equal contents are equal data. -/
theorem ext_of_wf {m m' : Memory} (w : wf m = true) (w' : wf m' = true) (h : ∀ a, readByte m a = readByte m' a) : m = m' :=
  ext_from w w' h

end Memory

/-! ### Little-endian numbers (R2) -/

@[simp] theorem length_leBytes (n v : Nat) : (leBytes n v).length = n := by
  induction n generalizing v with
  | zero => rfl
  | succ n ih => simp [leBytes, ih]

theorem leNat_leBytes (n v : Nat) : leNat (leBytes n v) = v % 2 ^ (8 * n) := by
  induction n generalizing v with
  | zero => simp [leBytes, leNat, Nat.mod_one]
  | succ n ih =>
    rw [leBytes, leNat, ih, BitVec.toNat_ofNat, show 8 * (n + 1) = 8 + 8 * n by omega, Nat.pow_add]
    exact (Nat.mod_mul (x := v) (a := 256) (b := 2 ^ (8 * n))).symm

end Sys2Proof.Machine
end

