-- ==== Sys2Proof/Laws/State.lean ====
section
/-! SUPPORT. What each update of the state changes: one lemma per field per update. -/

namespace Sys2Proof.Machine

/-! ### `setSlot` -/

@[simp] theorem State.setSlot_ctl (s : State) (k : Nat) (x : Slot) : (s.setSlot k x).ctl = s.ctl := rfl
@[simp] theorem State.setSlot_cycle (s : State) (k : Nat) (x : Slot) : (s.setSlot k x).cycle = s.cycle := rfl
@[simp] theorem State.setSlot_hbm (s : State) (k : Nat) (x : Slot) : (s.setSlot k x).hbm = s.hbm := rfl
@[simp] theorem State.setSlot_sp (s : State) (k : Nat) (x : Slot) : (s.setSlot k x).sp = s.sp := rfl
@[simp] theorem State.setSlot_views (s : State) (k : Nat) (x : Slot) : (s.setSlot k x).views = s.views := rfl
@[simp] theorem State.setSlot_host (s : State) (k : Nat) (x : Slot) : (s.setSlot k x).host = s.host := rfl
@[simp] theorem State.setSlot_marked (s : State) (k : Nat) (x : Slot) : (s.setSlot k x).marked = s.marked := rfl
@[simp] theorem State.setSlot_poison (s : State) (k : Nat) (x : Slot) : (s.setSlot k x).poison = s.poison := rfl
@[simp] theorem State.setSlot_spPoison (s : State) (k : Nat) (x : Slot) : (s.setSlot k x).spPoison = s.spPoison := rfl
@[simp] theorem State.setSlot_hostBad (s : State) (k : Nat) (x : Slot) : (s.setSlot k x).hostBad = s.hostBad := rfl
@[simp] theorem State.setSlot_slots (s : State) (k : Nat) (x : Slot) : (s.setSlot k x).slots = Map.set s.slots k x := rfl
@[simp] theorem State.setSlot_cores (s : State) (k : Nat) (x : Slot) : (s.setSlot k x).cores = s.cores := rfl
@[simp] theorem State.setSlot_lathes (s : State) (k : Nat) (x : Slot) : (s.setSlot k x).lathes = s.lathes := rfl
@[simp] theorem State.setSlot_clusters (s : State) (k : Nat) (x : Slot) : (s.setSlot k x).clusters = s.clusters := rfl
@[simp] theorem State.setSlot_tiles (s : State) (k : Nat) (x : Slot) : (s.setSlot k x).tiles = s.tiles := rfl
@[simp] theorem State.setSlot_dies (s : State) (k : Nat) (x : Slot) : (s.setSlot k x).dies = s.dies := rfl
@[simp] theorem State.setSlot_dieBarriers (s : State) (k : Nat) (x : Slot) : (s.setSlot k x).dieBarriers = s.dieBarriers := rfl
@[simp] theorem State.setSlot_modBarriers (s : State) (k : Nat) (x : Slot) : (s.setSlot k x).modBarriers = s.modBarriers := rfl
@[simp] theorem State.setSlot_slices (s : State) (k : Nat) (x : Slot) : (s.setSlot k x).slices = s.slices := rfl
@[simp] theorem State.setSlot_ctxs (s : State) (k : Nat) (x : Slot) : (s.setSlot k x).ctxs = s.ctxs := rfl
@[simp] theorem State.setSlot_launches (s : State) (k : Nat) (x : Slot) : (s.setSlot k x).launches = s.launches := rfl
@[simp] theorem State.setSlot_images (s : State) (k : Nat) (x : Slot) : (s.setSlot k x).images = s.images := rfl
@[simp] theorem State.setSlot_mesh (s : State) (k : Nat) (x : Slot) : (s.setSlot k x).mesh = s.mesh := rfl
@[simp] theorem State.setSlot_links (s : State) (k : Nat) (x : Slot) : (s.setSlot k x).links = s.links := rfl
@[simp] theorem State.setSlot_hostMode (s : State) (k : Nat) (x : Slot) : (s.setSlot k x).hostMode = s.hostMode := rfl
@[simp] theorem State.setSlot_mgmt (s : State) (k : Nat) (x : Slot) : (s.setSlot k x).mgmt = s.mgmt := rfl

/-! ### `setCur` -/

@[simp] theorem State.setCur_ctl (s : State) (x : Slot) : (s.setCur x).ctl = s.ctl := rfl
@[simp] theorem State.setCur_cycle (s : State) (x : Slot) : (s.setCur x).cycle = s.cycle := rfl
@[simp] theorem State.setCur_hbm (s : State) (x : Slot) : (s.setCur x).hbm = s.hbm := rfl
@[simp] theorem State.setCur_sp (s : State) (x : Slot) : (s.setCur x).sp = s.sp := rfl
@[simp] theorem State.setCur_views (s : State) (x : Slot) : (s.setCur x).views = s.views := rfl
@[simp] theorem State.setCur_host (s : State) (x : Slot) : (s.setCur x).host = s.host := rfl
@[simp] theorem State.setCur_marked (s : State) (x : Slot) : (s.setCur x).marked = s.marked := rfl
@[simp] theorem State.setCur_poison (s : State) (x : Slot) : (s.setCur x).poison = s.poison := rfl
@[simp] theorem State.setCur_spPoison (s : State) (x : Slot) : (s.setCur x).spPoison = s.spPoison := rfl
@[simp] theorem State.setCur_hostBad (s : State) (x : Slot) : (s.setCur x).hostBad = s.hostBad := rfl
@[simp] theorem State.setCur_slots (s : State) (x : Slot) : (s.setCur x).slots = Map.set s.slots s.key x := rfl
@[simp] theorem State.setCur_cores (s : State) (x : Slot) : (s.setCur x).cores = s.cores := rfl
@[simp] theorem State.setCur_lathes (s : State) (x : Slot) : (s.setCur x).lathes = s.lathes := rfl
@[simp] theorem State.setCur_clusters (s : State) (x : Slot) : (s.setCur x).clusters = s.clusters := rfl
@[simp] theorem State.setCur_tiles (s : State) (x : Slot) : (s.setCur x).tiles = s.tiles := rfl
@[simp] theorem State.setCur_dies (s : State) (x : Slot) : (s.setCur x).dies = s.dies := rfl
@[simp] theorem State.setCur_dieBarriers (s : State) (x : Slot) : (s.setCur x).dieBarriers = s.dieBarriers := rfl
@[simp] theorem State.setCur_modBarriers (s : State) (x : Slot) : (s.setCur x).modBarriers = s.modBarriers := rfl
@[simp] theorem State.setCur_slices (s : State) (x : Slot) : (s.setCur x).slices = s.slices := rfl
@[simp] theorem State.setCur_ctxs (s : State) (x : Slot) : (s.setCur x).ctxs = s.ctxs := rfl
@[simp] theorem State.setCur_launches (s : State) (x : Slot) : (s.setCur x).launches = s.launches := rfl
@[simp] theorem State.setCur_images (s : State) (x : Slot) : (s.setCur x).images = s.images := rfl
@[simp] theorem State.setCur_mesh (s : State) (x : Slot) : (s.setCur x).mesh = s.mesh := rfl
@[simp] theorem State.setCur_links (s : State) (x : Slot) : (s.setCur x).links = s.links := rfl
@[simp] theorem State.setCur_hostMode (s : State) (x : Slot) : (s.setCur x).hostMode = s.hostMode := rfl
@[simp] theorem State.setCur_mgmt (s : State) (x : Slot) : (s.setCur x).mgmt = s.mgmt := rfl

/-! ### `setCore` -/

@[simp] theorem State.setCore_ctl (s : State) (n : Nat) (x : Core) : (s.setCore n x).ctl = s.ctl := rfl
@[simp] theorem State.setCore_cycle (s : State) (n : Nat) (x : Core) : (s.setCore n x).cycle = s.cycle := rfl
@[simp] theorem State.setCore_hbm (s : State) (n : Nat) (x : Core) : (s.setCore n x).hbm = s.hbm := rfl
@[simp] theorem State.setCore_sp (s : State) (n : Nat) (x : Core) : (s.setCore n x).sp = s.sp := rfl
@[simp] theorem State.setCore_views (s : State) (n : Nat) (x : Core) : (s.setCore n x).views = s.views := rfl
@[simp] theorem State.setCore_host (s : State) (n : Nat) (x : Core) : (s.setCore n x).host = s.host := rfl
@[simp] theorem State.setCore_marked (s : State) (n : Nat) (x : Core) : (s.setCore n x).marked = s.marked := rfl
@[simp] theorem State.setCore_poison (s : State) (n : Nat) (x : Core) : (s.setCore n x).poison = s.poison := rfl
@[simp] theorem State.setCore_spPoison (s : State) (n : Nat) (x : Core) : (s.setCore n x).spPoison = s.spPoison := rfl
@[simp] theorem State.setCore_hostBad (s : State) (n : Nat) (x : Core) : (s.setCore n x).hostBad = s.hostBad := rfl
@[simp] theorem State.setCore_slots (s : State) (n : Nat) (x : Core) : (s.setCore n x).slots = s.slots := rfl
@[simp] theorem State.setCore_cores (s : State) (n : Nat) (x : Core) : (s.setCore n x).cores = Map.set s.cores n x := rfl
@[simp] theorem State.setCore_lathes (s : State) (n : Nat) (x : Core) : (s.setCore n x).lathes = s.lathes := rfl
@[simp] theorem State.setCore_clusters (s : State) (n : Nat) (x : Core) : (s.setCore n x).clusters = s.clusters := rfl
@[simp] theorem State.setCore_tiles (s : State) (n : Nat) (x : Core) : (s.setCore n x).tiles = s.tiles := rfl
@[simp] theorem State.setCore_dies (s : State) (n : Nat) (x : Core) : (s.setCore n x).dies = s.dies := rfl
@[simp] theorem State.setCore_dieBarriers (s : State) (n : Nat) (x : Core) : (s.setCore n x).dieBarriers = s.dieBarriers := rfl
@[simp] theorem State.setCore_modBarriers (s : State) (n : Nat) (x : Core) : (s.setCore n x).modBarriers = s.modBarriers := rfl
@[simp] theorem State.setCore_slices (s : State) (n : Nat) (x : Core) : (s.setCore n x).slices = s.slices := rfl
@[simp] theorem State.setCore_ctxs (s : State) (n : Nat) (x : Core) : (s.setCore n x).ctxs = s.ctxs := rfl
@[simp] theorem State.setCore_launches (s : State) (n : Nat) (x : Core) : (s.setCore n x).launches = s.launches := rfl
@[simp] theorem State.setCore_images (s : State) (n : Nat) (x : Core) : (s.setCore n x).images = s.images := rfl
@[simp] theorem State.setCore_mesh (s : State) (n : Nat) (x : Core) : (s.setCore n x).mesh = s.mesh := rfl
@[simp] theorem State.setCore_links (s : State) (n : Nat) (x : Core) : (s.setCore n x).links = s.links := rfl
@[simp] theorem State.setCore_hostMode (s : State) (n : Nat) (x : Core) : (s.setCore n x).hostMode = s.hostMode := rfl
@[simp] theorem State.setCore_mgmt (s : State) (n : Nat) (x : Core) : (s.setCore n x).mgmt = s.mgmt := rfl

/-! ### `setLathe` -/

@[simp] theorem State.setLathe_ctl (s : State) (l : Nat) (x : Lathe) : (s.setLathe l x).ctl = s.ctl := rfl
@[simp] theorem State.setLathe_cycle (s : State) (l : Nat) (x : Lathe) : (s.setLathe l x).cycle = s.cycle := rfl
@[simp] theorem State.setLathe_hbm (s : State) (l : Nat) (x : Lathe) : (s.setLathe l x).hbm = s.hbm := rfl
@[simp] theorem State.setLathe_sp (s : State) (l : Nat) (x : Lathe) : (s.setLathe l x).sp = s.sp := rfl
@[simp] theorem State.setLathe_views (s : State) (l : Nat) (x : Lathe) : (s.setLathe l x).views = s.views := rfl
@[simp] theorem State.setLathe_host (s : State) (l : Nat) (x : Lathe) : (s.setLathe l x).host = s.host := rfl
@[simp] theorem State.setLathe_marked (s : State) (l : Nat) (x : Lathe) : (s.setLathe l x).marked = s.marked := rfl
@[simp] theorem State.setLathe_poison (s : State) (l : Nat) (x : Lathe) : (s.setLathe l x).poison = s.poison := rfl
@[simp] theorem State.setLathe_spPoison (s : State) (l : Nat) (x : Lathe) : (s.setLathe l x).spPoison = s.spPoison := rfl
@[simp] theorem State.setLathe_hostBad (s : State) (l : Nat) (x : Lathe) : (s.setLathe l x).hostBad = s.hostBad := rfl
@[simp] theorem State.setLathe_slots (s : State) (l : Nat) (x : Lathe) : (s.setLathe l x).slots = s.slots := rfl
@[simp] theorem State.setLathe_cores (s : State) (l : Nat) (x : Lathe) : (s.setLathe l x).cores = s.cores := rfl
@[simp] theorem State.setLathe_lathes (s : State) (l : Nat) (x : Lathe) : (s.setLathe l x).lathes = Map.set s.lathes l x := rfl
@[simp] theorem State.setLathe_clusters (s : State) (l : Nat) (x : Lathe) : (s.setLathe l x).clusters = s.clusters := rfl
@[simp] theorem State.setLathe_tiles (s : State) (l : Nat) (x : Lathe) : (s.setLathe l x).tiles = s.tiles := rfl
@[simp] theorem State.setLathe_dies (s : State) (l : Nat) (x : Lathe) : (s.setLathe l x).dies = s.dies := rfl
@[simp] theorem State.setLathe_dieBarriers (s : State) (l : Nat) (x : Lathe) : (s.setLathe l x).dieBarriers = s.dieBarriers := rfl
@[simp] theorem State.setLathe_modBarriers (s : State) (l : Nat) (x : Lathe) : (s.setLathe l x).modBarriers = s.modBarriers := rfl
@[simp] theorem State.setLathe_slices (s : State) (l : Nat) (x : Lathe) : (s.setLathe l x).slices = s.slices := rfl
@[simp] theorem State.setLathe_ctxs (s : State) (l : Nat) (x : Lathe) : (s.setLathe l x).ctxs = s.ctxs := rfl
@[simp] theorem State.setLathe_launches (s : State) (l : Nat) (x : Lathe) : (s.setLathe l x).launches = s.launches := rfl
@[simp] theorem State.setLathe_images (s : State) (l : Nat) (x : Lathe) : (s.setLathe l x).images = s.images := rfl
@[simp] theorem State.setLathe_mesh (s : State) (l : Nat) (x : Lathe) : (s.setLathe l x).mesh = s.mesh := rfl
@[simp] theorem State.setLathe_links (s : State) (l : Nat) (x : Lathe) : (s.setLathe l x).links = s.links := rfl
@[simp] theorem State.setLathe_hostMode (s : State) (l : Nat) (x : Lathe) : (s.setLathe l x).hostMode = s.hostMode := rfl
@[simp] theorem State.setLathe_mgmt (s : State) (l : Nat) (x : Lathe) : (s.setLathe l x).mgmt = s.mgmt := rfl

/-! ### `setCluster` -/

@[simp] theorem State.setCluster_ctl (s : State) (c : Nat) (x : Cluster) : (s.setCluster c x).ctl = s.ctl := rfl
@[simp] theorem State.setCluster_cycle (s : State) (c : Nat) (x : Cluster) : (s.setCluster c x).cycle = s.cycle := rfl
@[simp] theorem State.setCluster_hbm (s : State) (c : Nat) (x : Cluster) : (s.setCluster c x).hbm = s.hbm := rfl
@[simp] theorem State.setCluster_sp (s : State) (c : Nat) (x : Cluster) : (s.setCluster c x).sp = s.sp := rfl
@[simp] theorem State.setCluster_views (s : State) (c : Nat) (x : Cluster) : (s.setCluster c x).views = s.views := rfl
@[simp] theorem State.setCluster_host (s : State) (c : Nat) (x : Cluster) : (s.setCluster c x).host = s.host := rfl
@[simp] theorem State.setCluster_marked (s : State) (c : Nat) (x : Cluster) : (s.setCluster c x).marked = s.marked := rfl
@[simp] theorem State.setCluster_poison (s : State) (c : Nat) (x : Cluster) : (s.setCluster c x).poison = s.poison := rfl
@[simp] theorem State.setCluster_spPoison (s : State) (c : Nat) (x : Cluster) : (s.setCluster c x).spPoison = s.spPoison := rfl
@[simp] theorem State.setCluster_hostBad (s : State) (c : Nat) (x : Cluster) : (s.setCluster c x).hostBad = s.hostBad := rfl
@[simp] theorem State.setCluster_slots (s : State) (c : Nat) (x : Cluster) : (s.setCluster c x).slots = s.slots := rfl
@[simp] theorem State.setCluster_cores (s : State) (c : Nat) (x : Cluster) : (s.setCluster c x).cores = s.cores := rfl
@[simp] theorem State.setCluster_lathes (s : State) (c : Nat) (x : Cluster) : (s.setCluster c x).lathes = s.lathes := rfl
@[simp] theorem State.setCluster_clusters (s : State) (c : Nat) (x : Cluster) : (s.setCluster c x).clusters = Map.set s.clusters c x := rfl
@[simp] theorem State.setCluster_tiles (s : State) (c : Nat) (x : Cluster) : (s.setCluster c x).tiles = s.tiles := rfl
@[simp] theorem State.setCluster_dies (s : State) (c : Nat) (x : Cluster) : (s.setCluster c x).dies = s.dies := rfl
@[simp] theorem State.setCluster_dieBarriers (s : State) (c : Nat) (x : Cluster) : (s.setCluster c x).dieBarriers = s.dieBarriers := rfl
@[simp] theorem State.setCluster_modBarriers (s : State) (c : Nat) (x : Cluster) : (s.setCluster c x).modBarriers = s.modBarriers := rfl
@[simp] theorem State.setCluster_slices (s : State) (c : Nat) (x : Cluster) : (s.setCluster c x).slices = s.slices := rfl
@[simp] theorem State.setCluster_ctxs (s : State) (c : Nat) (x : Cluster) : (s.setCluster c x).ctxs = s.ctxs := rfl
@[simp] theorem State.setCluster_launches (s : State) (c : Nat) (x : Cluster) : (s.setCluster c x).launches = s.launches := rfl
@[simp] theorem State.setCluster_images (s : State) (c : Nat) (x : Cluster) : (s.setCluster c x).images = s.images := rfl
@[simp] theorem State.setCluster_mesh (s : State) (c : Nat) (x : Cluster) : (s.setCluster c x).mesh = s.mesh := rfl
@[simp] theorem State.setCluster_links (s : State) (c : Nat) (x : Cluster) : (s.setCluster c x).links = s.links := rfl
@[simp] theorem State.setCluster_hostMode (s : State) (c : Nat) (x : Cluster) : (s.setCluster c x).hostMode = s.hostMode := rfl
@[simp] theorem State.setCluster_mgmt (s : State) (c : Nat) (x : Cluster) : (s.setCluster c x).mgmt = s.mgmt := rfl

/-! ### `setTile` -/

@[simp] theorem State.setTile_ctl (s : State) (t : Nat) (x : Tile) : (s.setTile t x).ctl = s.ctl := rfl
@[simp] theorem State.setTile_cycle (s : State) (t : Nat) (x : Tile) : (s.setTile t x).cycle = s.cycle := rfl
@[simp] theorem State.setTile_hbm (s : State) (t : Nat) (x : Tile) : (s.setTile t x).hbm = s.hbm := rfl
@[simp] theorem State.setTile_sp (s : State) (t : Nat) (x : Tile) : (s.setTile t x).sp = s.sp := rfl
@[simp] theorem State.setTile_views (s : State) (t : Nat) (x : Tile) : (s.setTile t x).views = s.views := rfl
@[simp] theorem State.setTile_host (s : State) (t : Nat) (x : Tile) : (s.setTile t x).host = s.host := rfl
@[simp] theorem State.setTile_marked (s : State) (t : Nat) (x : Tile) : (s.setTile t x).marked = s.marked := rfl
@[simp] theorem State.setTile_poison (s : State) (t : Nat) (x : Tile) : (s.setTile t x).poison = s.poison := rfl
@[simp] theorem State.setTile_spPoison (s : State) (t : Nat) (x : Tile) : (s.setTile t x).spPoison = s.spPoison := rfl
@[simp] theorem State.setTile_hostBad (s : State) (t : Nat) (x : Tile) : (s.setTile t x).hostBad = s.hostBad := rfl
@[simp] theorem State.setTile_slots (s : State) (t : Nat) (x : Tile) : (s.setTile t x).slots = s.slots := rfl
@[simp] theorem State.setTile_cores (s : State) (t : Nat) (x : Tile) : (s.setTile t x).cores = s.cores := rfl
@[simp] theorem State.setTile_lathes (s : State) (t : Nat) (x : Tile) : (s.setTile t x).lathes = s.lathes := rfl
@[simp] theorem State.setTile_clusters (s : State) (t : Nat) (x : Tile) : (s.setTile t x).clusters = s.clusters := rfl
@[simp] theorem State.setTile_tiles (s : State) (t : Nat) (x : Tile) : (s.setTile t x).tiles = Map.set s.tiles t x := rfl
@[simp] theorem State.setTile_dies (s : State) (t : Nat) (x : Tile) : (s.setTile t x).dies = s.dies := rfl
@[simp] theorem State.setTile_dieBarriers (s : State) (t : Nat) (x : Tile) : (s.setTile t x).dieBarriers = s.dieBarriers := rfl
@[simp] theorem State.setTile_modBarriers (s : State) (t : Nat) (x : Tile) : (s.setTile t x).modBarriers = s.modBarriers := rfl
@[simp] theorem State.setTile_slices (s : State) (t : Nat) (x : Tile) : (s.setTile t x).slices = s.slices := rfl
@[simp] theorem State.setTile_ctxs (s : State) (t : Nat) (x : Tile) : (s.setTile t x).ctxs = s.ctxs := rfl
@[simp] theorem State.setTile_launches (s : State) (t : Nat) (x : Tile) : (s.setTile t x).launches = s.launches := rfl
@[simp] theorem State.setTile_images (s : State) (t : Nat) (x : Tile) : (s.setTile t x).images = s.images := rfl
@[simp] theorem State.setTile_mesh (s : State) (t : Nat) (x : Tile) : (s.setTile t x).mesh = s.mesh := rfl
@[simp] theorem State.setTile_links (s : State) (t : Nat) (x : Tile) : (s.setTile t x).links = s.links := rfl
@[simp] theorem State.setTile_hostMode (s : State) (t : Nat) (x : Tile) : (s.setTile t x).hostMode = s.hostMode := rfl
@[simp] theorem State.setTile_mgmt (s : State) (t : Nat) (x : Tile) : (s.setTile t x).mgmt = s.mgmt := rfl

/-! ### `setDie` -/

@[simp] theorem State.setDie_ctl (s : State) (d : Nat) (x : Die) : (s.setDie d x).ctl = s.ctl := rfl
@[simp] theorem State.setDie_cycle (s : State) (d : Nat) (x : Die) : (s.setDie d x).cycle = s.cycle := rfl
@[simp] theorem State.setDie_hbm (s : State) (d : Nat) (x : Die) : (s.setDie d x).hbm = s.hbm := rfl
@[simp] theorem State.setDie_sp (s : State) (d : Nat) (x : Die) : (s.setDie d x).sp = s.sp := rfl
@[simp] theorem State.setDie_views (s : State) (d : Nat) (x : Die) : (s.setDie d x).views = s.views := rfl
@[simp] theorem State.setDie_host (s : State) (d : Nat) (x : Die) : (s.setDie d x).host = s.host := rfl
@[simp] theorem State.setDie_marked (s : State) (d : Nat) (x : Die) : (s.setDie d x).marked = s.marked := rfl
@[simp] theorem State.setDie_poison (s : State) (d : Nat) (x : Die) : (s.setDie d x).poison = s.poison := rfl
@[simp] theorem State.setDie_spPoison (s : State) (d : Nat) (x : Die) : (s.setDie d x).spPoison = s.spPoison := rfl
@[simp] theorem State.setDie_hostBad (s : State) (d : Nat) (x : Die) : (s.setDie d x).hostBad = s.hostBad := rfl
@[simp] theorem State.setDie_slots (s : State) (d : Nat) (x : Die) : (s.setDie d x).slots = s.slots := rfl
@[simp] theorem State.setDie_cores (s : State) (d : Nat) (x : Die) : (s.setDie d x).cores = s.cores := rfl
@[simp] theorem State.setDie_lathes (s : State) (d : Nat) (x : Die) : (s.setDie d x).lathes = s.lathes := rfl
@[simp] theorem State.setDie_clusters (s : State) (d : Nat) (x : Die) : (s.setDie d x).clusters = s.clusters := rfl
@[simp] theorem State.setDie_tiles (s : State) (d : Nat) (x : Die) : (s.setDie d x).tiles = s.tiles := rfl
@[simp] theorem State.setDie_dies (s : State) (d : Nat) (x : Die) : (s.setDie d x).dies = Map.set s.dies d x := rfl
@[simp] theorem State.setDie_dieBarriers (s : State) (d : Nat) (x : Die) : (s.setDie d x).dieBarriers = s.dieBarriers := rfl
@[simp] theorem State.setDie_modBarriers (s : State) (d : Nat) (x : Die) : (s.setDie d x).modBarriers = s.modBarriers := rfl
@[simp] theorem State.setDie_slices (s : State) (d : Nat) (x : Die) : (s.setDie d x).slices = s.slices := rfl
@[simp] theorem State.setDie_ctxs (s : State) (d : Nat) (x : Die) : (s.setDie d x).ctxs = s.ctxs := rfl
@[simp] theorem State.setDie_launches (s : State) (d : Nat) (x : Die) : (s.setDie d x).launches = s.launches := rfl
@[simp] theorem State.setDie_images (s : State) (d : Nat) (x : Die) : (s.setDie d x).images = s.images := rfl
@[simp] theorem State.setDie_mesh (s : State) (d : Nat) (x : Die) : (s.setDie d x).mesh = s.mesh := rfl
@[simp] theorem State.setDie_links (s : State) (d : Nat) (x : Die) : (s.setDie d x).links = s.links := rfl
@[simp] theorem State.setDie_hostMode (s : State) (d : Nat) (x : Die) : (s.setDie d x).hostMode = s.hostMode := rfl
@[simp] theorem State.setDie_mgmt (s : State) (d : Nat) (x : Die) : (s.setDie d x).mgmt = s.mgmt := rfl

/-! ### `setSlice` -/

@[simp] theorem State.setSlice_ctl (s : State) (n : Nat) (x : Slice) : (s.setSlice n x).ctl = s.ctl := rfl
@[simp] theorem State.setSlice_cycle (s : State) (n : Nat) (x : Slice) : (s.setSlice n x).cycle = s.cycle := rfl
@[simp] theorem State.setSlice_hbm (s : State) (n : Nat) (x : Slice) : (s.setSlice n x).hbm = s.hbm := rfl
@[simp] theorem State.setSlice_sp (s : State) (n : Nat) (x : Slice) : (s.setSlice n x).sp = s.sp := rfl
@[simp] theorem State.setSlice_views (s : State) (n : Nat) (x : Slice) : (s.setSlice n x).views = s.views := rfl
@[simp] theorem State.setSlice_host (s : State) (n : Nat) (x : Slice) : (s.setSlice n x).host = s.host := rfl
@[simp] theorem State.setSlice_marked (s : State) (n : Nat) (x : Slice) : (s.setSlice n x).marked = s.marked := rfl
@[simp] theorem State.setSlice_poison (s : State) (n : Nat) (x : Slice) : (s.setSlice n x).poison = s.poison := rfl
@[simp] theorem State.setSlice_spPoison (s : State) (n : Nat) (x : Slice) : (s.setSlice n x).spPoison = s.spPoison := rfl
@[simp] theorem State.setSlice_hostBad (s : State) (n : Nat) (x : Slice) : (s.setSlice n x).hostBad = s.hostBad := rfl
@[simp] theorem State.setSlice_slots (s : State) (n : Nat) (x : Slice) : (s.setSlice n x).slots = s.slots := rfl
@[simp] theorem State.setSlice_cores (s : State) (n : Nat) (x : Slice) : (s.setSlice n x).cores = s.cores := rfl
@[simp] theorem State.setSlice_lathes (s : State) (n : Nat) (x : Slice) : (s.setSlice n x).lathes = s.lathes := rfl
@[simp] theorem State.setSlice_clusters (s : State) (n : Nat) (x : Slice) : (s.setSlice n x).clusters = s.clusters := rfl
@[simp] theorem State.setSlice_tiles (s : State) (n : Nat) (x : Slice) : (s.setSlice n x).tiles = s.tiles := rfl
@[simp] theorem State.setSlice_dies (s : State) (n : Nat) (x : Slice) : (s.setSlice n x).dies = s.dies := rfl
@[simp] theorem State.setSlice_dieBarriers (s : State) (n : Nat) (x : Slice) : (s.setSlice n x).dieBarriers = s.dieBarriers := rfl
@[simp] theorem State.setSlice_modBarriers (s : State) (n : Nat) (x : Slice) : (s.setSlice n x).modBarriers = s.modBarriers := rfl
@[simp] theorem State.setSlice_slices (s : State) (n : Nat) (x : Slice) : (s.setSlice n x).slices = Map.set s.slices n x := rfl
@[simp] theorem State.setSlice_ctxs (s : State) (n : Nat) (x : Slice) : (s.setSlice n x).ctxs = s.ctxs := rfl
@[simp] theorem State.setSlice_launches (s : State) (n : Nat) (x : Slice) : (s.setSlice n x).launches = s.launches := rfl
@[simp] theorem State.setSlice_images (s : State) (n : Nat) (x : Slice) : (s.setSlice n x).images = s.images := rfl
@[simp] theorem State.setSlice_mesh (s : State) (n : Nat) (x : Slice) : (s.setSlice n x).mesh = s.mesh := rfl
@[simp] theorem State.setSlice_links (s : State) (n : Nat) (x : Slice) : (s.setSlice n x).links = s.links := rfl
@[simp] theorem State.setSlice_hostMode (s : State) (n : Nat) (x : Slice) : (s.setSlice n x).hostMode = s.hostMode := rfl
@[simp] theorem State.setSlice_mgmt (s : State) (n : Nat) (x : Slice) : (s.setSlice n x).mgmt = s.mgmt := rfl

/-! ### `setCtx` -/

@[simp] theorem State.setCtx_ctl (s : State) (c : Nat) (x : Ctx) : (s.setCtx c x).ctl = s.ctl := rfl
@[simp] theorem State.setCtx_cycle (s : State) (c : Nat) (x : Ctx) : (s.setCtx c x).cycle = s.cycle := rfl
@[simp] theorem State.setCtx_hbm (s : State) (c : Nat) (x : Ctx) : (s.setCtx c x).hbm = s.hbm := rfl
@[simp] theorem State.setCtx_sp (s : State) (c : Nat) (x : Ctx) : (s.setCtx c x).sp = s.sp := rfl
@[simp] theorem State.setCtx_views (s : State) (c : Nat) (x : Ctx) : (s.setCtx c x).views = s.views := rfl
@[simp] theorem State.setCtx_host (s : State) (c : Nat) (x : Ctx) : (s.setCtx c x).host = s.host := rfl
@[simp] theorem State.setCtx_marked (s : State) (c : Nat) (x : Ctx) : (s.setCtx c x).marked = s.marked := rfl
@[simp] theorem State.setCtx_poison (s : State) (c : Nat) (x : Ctx) : (s.setCtx c x).poison = s.poison := rfl
@[simp] theorem State.setCtx_spPoison (s : State) (c : Nat) (x : Ctx) : (s.setCtx c x).spPoison = s.spPoison := rfl
@[simp] theorem State.setCtx_hostBad (s : State) (c : Nat) (x : Ctx) : (s.setCtx c x).hostBad = s.hostBad := rfl
@[simp] theorem State.setCtx_slots (s : State) (c : Nat) (x : Ctx) : (s.setCtx c x).slots = s.slots := rfl
@[simp] theorem State.setCtx_cores (s : State) (c : Nat) (x : Ctx) : (s.setCtx c x).cores = s.cores := rfl
@[simp] theorem State.setCtx_lathes (s : State) (c : Nat) (x : Ctx) : (s.setCtx c x).lathes = s.lathes := rfl
@[simp] theorem State.setCtx_clusters (s : State) (c : Nat) (x : Ctx) : (s.setCtx c x).clusters = s.clusters := rfl
@[simp] theorem State.setCtx_tiles (s : State) (c : Nat) (x : Ctx) : (s.setCtx c x).tiles = s.tiles := rfl
@[simp] theorem State.setCtx_dies (s : State) (c : Nat) (x : Ctx) : (s.setCtx c x).dies = s.dies := rfl
@[simp] theorem State.setCtx_dieBarriers (s : State) (c : Nat) (x : Ctx) : (s.setCtx c x).dieBarriers = s.dieBarriers := rfl
@[simp] theorem State.setCtx_modBarriers (s : State) (c : Nat) (x : Ctx) : (s.setCtx c x).modBarriers = s.modBarriers := rfl
@[simp] theorem State.setCtx_slices (s : State) (c : Nat) (x : Ctx) : (s.setCtx c x).slices = s.slices := rfl
@[simp] theorem State.setCtx_ctxs (s : State) (c : Nat) (x : Ctx) : (s.setCtx c x).ctxs = Map.set s.ctxs c x := rfl
@[simp] theorem State.setCtx_launches (s : State) (c : Nat) (x : Ctx) : (s.setCtx c x).launches = s.launches := rfl
@[simp] theorem State.setCtx_images (s : State) (c : Nat) (x : Ctx) : (s.setCtx c x).images = s.images := rfl
@[simp] theorem State.setCtx_mesh (s : State) (c : Nat) (x : Ctx) : (s.setCtx c x).mesh = s.mesh := rfl
@[simp] theorem State.setCtx_links (s : State) (c : Nat) (x : Ctx) : (s.setCtx c x).links = s.links := rfl
@[simp] theorem State.setCtx_hostMode (s : State) (c : Nat) (x : Ctx) : (s.setCtx c x).hostMode = s.hostMode := rfl
@[simp] theorem State.setCtx_mgmt (s : State) (c : Nat) (x : Ctx) : (s.setCtx c x).mgmt = s.mgmt := rfl

/-! ### `tookFree` -/

@[simp] theorem State.tookFree_cycle (s : State) : (s.tookFree).cycle = s.cycle := rfl
@[simp] theorem State.tookFree_hbm (s : State) : (s.tookFree).hbm = s.hbm := rfl
@[simp] theorem State.tookFree_sp (s : State) : (s.tookFree).sp = s.sp := rfl
@[simp] theorem State.tookFree_views (s : State) : (s.tookFree).views = s.views := rfl
@[simp] theorem State.tookFree_host (s : State) : (s.tookFree).host = s.host := rfl
@[simp] theorem State.tookFree_marked (s : State) : (s.tookFree).marked = s.marked := rfl
@[simp] theorem State.tookFree_poison (s : State) : (s.tookFree).poison = s.poison := rfl
@[simp] theorem State.tookFree_spPoison (s : State) : (s.tookFree).spPoison = s.spPoison := rfl
@[simp] theorem State.tookFree_hostBad (s : State) : (s.tookFree).hostBad = s.hostBad := rfl
@[simp] theorem State.tookFree_slots (s : State) : (s.tookFree).slots = s.slots := rfl
@[simp] theorem State.tookFree_cores (s : State) : (s.tookFree).cores = s.cores := rfl
@[simp] theorem State.tookFree_lathes (s : State) : (s.tookFree).lathes = s.lathes := rfl
@[simp] theorem State.tookFree_clusters (s : State) : (s.tookFree).clusters = s.clusters := rfl
@[simp] theorem State.tookFree_tiles (s : State) : (s.tookFree).tiles = s.tiles := rfl
@[simp] theorem State.tookFree_dies (s : State) : (s.tookFree).dies = s.dies := rfl
@[simp] theorem State.tookFree_dieBarriers (s : State) : (s.tookFree).dieBarriers = s.dieBarriers := rfl
@[simp] theorem State.tookFree_modBarriers (s : State) : (s.tookFree).modBarriers = s.modBarriers := rfl
@[simp] theorem State.tookFree_slices (s : State) : (s.tookFree).slices = s.slices := rfl
@[simp] theorem State.tookFree_ctxs (s : State) : (s.tookFree).ctxs = s.ctxs := rfl
@[simp] theorem State.tookFree_launches (s : State) : (s.tookFree).launches = s.launches := rfl
@[simp] theorem State.tookFree_images (s : State) : (s.tookFree).images = s.images := rfl
@[simp] theorem State.tookFree_mesh (s : State) : (s.tookFree).mesh = s.mesh := rfl
@[simp] theorem State.tookFree_links (s : State) : (s.tookFree).links = s.links := rfl
@[simp] theorem State.tookFree_hostMode (s : State) : (s.tookFree).hostMode = s.hostMode := rfl
@[simp] theorem State.tookFree_mgmt (s : State) : (s.tookFree).mgmt = s.mgmt := rfl

/-! ### `hbmWrite` -/

@[simp] theorem State.hbmWrite_ctl (s : State) (a : Nat) (bs : List Byte) : (s.hbmWrite a bs).ctl = s.ctl := rfl
@[simp] theorem State.hbmWrite_cycle (s : State) (a : Nat) (bs : List Byte) : (s.hbmWrite a bs).cycle = s.cycle := rfl
@[simp] theorem State.hbmWrite_hbm (s : State) (a : Nat) (bs : List Byte) : (s.hbmWrite a bs).hbm = Memory.writeBytes s.hbm a bs := rfl
@[simp] theorem State.hbmWrite_sp (s : State) (a : Nat) (bs : List Byte) : (s.hbmWrite a bs).sp = s.sp := rfl
@[simp] theorem State.hbmWrite_views (s : State) (a : Nat) (bs : List Byte) : (s.hbmWrite a bs).views = s.views := rfl
@[simp] theorem State.hbmWrite_host (s : State) (a : Nat) (bs : List Byte) : (s.hbmWrite a bs).host = s.host := rfl
@[simp] theorem State.hbmWrite_marked (s : State) (a : Nat) (bs : List Byte) : (s.hbmWrite a bs).marked = s.marked := rfl
@[simp] theorem State.hbmWrite_spPoison (s : State) (a : Nat) (bs : List Byte) : (s.hbmWrite a bs).spPoison = s.spPoison := rfl
@[simp] theorem State.hbmWrite_hostBad (s : State) (a : Nat) (bs : List Byte) : (s.hbmWrite a bs).hostBad = s.hostBad := rfl
@[simp] theorem State.hbmWrite_slots (s : State) (a : Nat) (bs : List Byte) : (s.hbmWrite a bs).slots = s.slots := rfl
@[simp] theorem State.hbmWrite_cores (s : State) (a : Nat) (bs : List Byte) : (s.hbmWrite a bs).cores = s.cores := rfl
@[simp] theorem State.hbmWrite_lathes (s : State) (a : Nat) (bs : List Byte) : (s.hbmWrite a bs).lathes = s.lathes := rfl
@[simp] theorem State.hbmWrite_clusters (s : State) (a : Nat) (bs : List Byte) : (s.hbmWrite a bs).clusters = s.clusters := rfl
@[simp] theorem State.hbmWrite_tiles (s : State) (a : Nat) (bs : List Byte) : (s.hbmWrite a bs).tiles = s.tiles := rfl
@[simp] theorem State.hbmWrite_dies (s : State) (a : Nat) (bs : List Byte) : (s.hbmWrite a bs).dies = s.dies := rfl
@[simp] theorem State.hbmWrite_dieBarriers (s : State) (a : Nat) (bs : List Byte) : (s.hbmWrite a bs).dieBarriers = s.dieBarriers := rfl
@[simp] theorem State.hbmWrite_modBarriers (s : State) (a : Nat) (bs : List Byte) : (s.hbmWrite a bs).modBarriers = s.modBarriers := rfl
@[simp] theorem State.hbmWrite_slices (s : State) (a : Nat) (bs : List Byte) : (s.hbmWrite a bs).slices = s.slices := rfl
@[simp] theorem State.hbmWrite_ctxs (s : State) (a : Nat) (bs : List Byte) : (s.hbmWrite a bs).ctxs = s.ctxs := rfl
@[simp] theorem State.hbmWrite_launches (s : State) (a : Nat) (bs : List Byte) : (s.hbmWrite a bs).launches = s.launches := rfl
@[simp] theorem State.hbmWrite_images (s : State) (a : Nat) (bs : List Byte) : (s.hbmWrite a bs).images = s.images := rfl
@[simp] theorem State.hbmWrite_mesh (s : State) (a : Nat) (bs : List Byte) : (s.hbmWrite a bs).mesh = s.mesh := rfl
@[simp] theorem State.hbmWrite_links (s : State) (a : Nat) (bs : List Byte) : (s.hbmWrite a bs).links = s.links := rfl
@[simp] theorem State.hbmWrite_hostMode (s : State) (a : Nat) (bs : List Byte) : (s.hbmWrite a bs).hostMode = s.hostMode := rfl
@[simp] theorem State.hbmWrite_mgmt (s : State) (a : Nat) (bs : List Byte) : (s.hbmWrite a bs).mgmt = s.mgmt := rfl

/-! ### `hbmWriteNat` -/

@[simp] theorem State.hbmWriteNat_ctl (s : State) (a n v : Nat) : (s.hbmWriteNat a n v).ctl = s.ctl := rfl
@[simp] theorem State.hbmWriteNat_cycle (s : State) (a n v : Nat) : (s.hbmWriteNat a n v).cycle = s.cycle := rfl
@[simp] theorem State.hbmWriteNat_hbm (s : State) (a n v : Nat) : (s.hbmWriteNat a n v).hbm = Memory.writeBytes s.hbm a (leBytes n v) := rfl
@[simp] theorem State.hbmWriteNat_sp (s : State) (a n v : Nat) : (s.hbmWriteNat a n v).sp = s.sp := rfl
@[simp] theorem State.hbmWriteNat_views (s : State) (a n v : Nat) : (s.hbmWriteNat a n v).views = s.views := rfl
@[simp] theorem State.hbmWriteNat_host (s : State) (a n v : Nat) : (s.hbmWriteNat a n v).host = s.host := rfl
@[simp] theorem State.hbmWriteNat_marked (s : State) (a n v : Nat) : (s.hbmWriteNat a n v).marked = s.marked := rfl
@[simp] theorem State.hbmWriteNat_spPoison (s : State) (a n v : Nat) : (s.hbmWriteNat a n v).spPoison = s.spPoison := rfl
@[simp] theorem State.hbmWriteNat_hostBad (s : State) (a n v : Nat) : (s.hbmWriteNat a n v).hostBad = s.hostBad := rfl
@[simp] theorem State.hbmWriteNat_slots (s : State) (a n v : Nat) : (s.hbmWriteNat a n v).slots = s.slots := rfl
@[simp] theorem State.hbmWriteNat_cores (s : State) (a n v : Nat) : (s.hbmWriteNat a n v).cores = s.cores := rfl
@[simp] theorem State.hbmWriteNat_lathes (s : State) (a n v : Nat) : (s.hbmWriteNat a n v).lathes = s.lathes := rfl
@[simp] theorem State.hbmWriteNat_clusters (s : State) (a n v : Nat) : (s.hbmWriteNat a n v).clusters = s.clusters := rfl
@[simp] theorem State.hbmWriteNat_tiles (s : State) (a n v : Nat) : (s.hbmWriteNat a n v).tiles = s.tiles := rfl
@[simp] theorem State.hbmWriteNat_dies (s : State) (a n v : Nat) : (s.hbmWriteNat a n v).dies = s.dies := rfl
@[simp] theorem State.hbmWriteNat_dieBarriers (s : State) (a n v : Nat) : (s.hbmWriteNat a n v).dieBarriers = s.dieBarriers := rfl
@[simp] theorem State.hbmWriteNat_modBarriers (s : State) (a n v : Nat) : (s.hbmWriteNat a n v).modBarriers = s.modBarriers := rfl
@[simp] theorem State.hbmWriteNat_slices (s : State) (a n v : Nat) : (s.hbmWriteNat a n v).slices = s.slices := rfl
@[simp] theorem State.hbmWriteNat_ctxs (s : State) (a n v : Nat) : (s.hbmWriteNat a n v).ctxs = s.ctxs := rfl
@[simp] theorem State.hbmWriteNat_launches (s : State) (a n v : Nat) : (s.hbmWriteNat a n v).launches = s.launches := rfl
@[simp] theorem State.hbmWriteNat_images (s : State) (a n v : Nat) : (s.hbmWriteNat a n v).images = s.images := rfl
@[simp] theorem State.hbmWriteNat_mesh (s : State) (a n v : Nat) : (s.hbmWriteNat a n v).mesh = s.mesh := rfl
@[simp] theorem State.hbmWriteNat_links (s : State) (a n v : Nat) : (s.hbmWriteNat a n v).links = s.links := rfl
@[simp] theorem State.hbmWriteNat_hostMode (s : State) (a n v : Nat) : (s.hbmWriteNat a n v).hostMode = s.hostMode := rfl
@[simp] theorem State.hbmWriteNat_mgmt (s : State) (a n v : Nat) : (s.hbmWriteNat a n v).mgmt = s.mgmt := rfl

/-! ### `viewJoin` -/

@[simp] theorem State.viewJoin_ctl (s : State) (a n : Nat) : (s.viewJoin a n).ctl = s.ctl := rfl
@[simp] theorem State.viewJoin_cycle (s : State) (a n : Nat) : (s.viewJoin a n).cycle = s.cycle := rfl
@[simp] theorem State.viewJoin_hbm (s : State) (a n : Nat) : (s.viewJoin a n).hbm = s.hbm := rfl
@[simp] theorem State.viewJoin_sp (s : State) (a n : Nat) : (s.viewJoin a n).sp = s.sp := rfl
@[simp] theorem State.viewJoin_host (s : State) (a n : Nat) : (s.viewJoin a n).host = s.host := rfl
@[simp] theorem State.viewJoin_marked (s : State) (a n : Nat) : (s.viewJoin a n).marked = s.marked := rfl
@[simp] theorem State.viewJoin_poison (s : State) (a n : Nat) : (s.viewJoin a n).poison = s.poison := rfl
@[simp] theorem State.viewJoin_spPoison (s : State) (a n : Nat) : (s.viewJoin a n).spPoison = s.spPoison := rfl
@[simp] theorem State.viewJoin_hostBad (s : State) (a n : Nat) : (s.viewJoin a n).hostBad = s.hostBad := rfl
@[simp] theorem State.viewJoin_slots (s : State) (a n : Nat) : (s.viewJoin a n).slots = s.slots := rfl
@[simp] theorem State.viewJoin_cores (s : State) (a n : Nat) : (s.viewJoin a n).cores = s.cores := rfl
@[simp] theorem State.viewJoin_lathes (s : State) (a n : Nat) : (s.viewJoin a n).lathes = s.lathes := rfl
@[simp] theorem State.viewJoin_clusters (s : State) (a n : Nat) : (s.viewJoin a n).clusters = s.clusters := rfl
@[simp] theorem State.viewJoin_tiles (s : State) (a n : Nat) : (s.viewJoin a n).tiles = s.tiles := rfl
@[simp] theorem State.viewJoin_dies (s : State) (a n : Nat) : (s.viewJoin a n).dies = s.dies := rfl
@[simp] theorem State.viewJoin_dieBarriers (s : State) (a n : Nat) : (s.viewJoin a n).dieBarriers = s.dieBarriers := rfl
@[simp] theorem State.viewJoin_modBarriers (s : State) (a n : Nat) : (s.viewJoin a n).modBarriers = s.modBarriers := rfl
@[simp] theorem State.viewJoin_slices (s : State) (a n : Nat) : (s.viewJoin a n).slices = s.slices := rfl
@[simp] theorem State.viewJoin_ctxs (s : State) (a n : Nat) : (s.viewJoin a n).ctxs = s.ctxs := rfl
@[simp] theorem State.viewJoin_launches (s : State) (a n : Nat) : (s.viewJoin a n).launches = s.launches := rfl
@[simp] theorem State.viewJoin_images (s : State) (a n : Nat) : (s.viewJoin a n).images = s.images := rfl
@[simp] theorem State.viewJoin_mesh (s : State) (a n : Nat) : (s.viewJoin a n).mesh = s.mesh := rfl
@[simp] theorem State.viewJoin_links (s : State) (a n : Nat) : (s.viewJoin a n).links = s.links := rfl
@[simp] theorem State.viewJoin_hostMode (s : State) (a n : Nat) : (s.viewJoin a n).hostMode = s.hostMode := rfl
@[simp] theorem State.viewJoin_mgmt (s : State) (a n : Nat) : (s.viewJoin a n).mgmt = s.mgmt := rfl

/-! ### `healSp` -/

@[simp] theorem State.healSp_ctl (s : State) (a n : Nat) : (s.healSp a n).ctl = s.ctl := rfl
@[simp] theorem State.healSp_cycle (s : State) (a n : Nat) : (s.healSp a n).cycle = s.cycle := rfl
@[simp] theorem State.healSp_hbm (s : State) (a n : Nat) : (s.healSp a n).hbm = s.hbm := rfl
@[simp] theorem State.healSp_sp (s : State) (a n : Nat) : (s.healSp a n).sp = s.sp := rfl
@[simp] theorem State.healSp_views (s : State) (a n : Nat) : (s.healSp a n).views = s.views := rfl
@[simp] theorem State.healSp_host (s : State) (a n : Nat) : (s.healSp a n).host = s.host := rfl
@[simp] theorem State.healSp_marked (s : State) (a n : Nat) : (s.healSp a n).marked = s.marked := rfl
@[simp] theorem State.healSp_poison (s : State) (a n : Nat) : (s.healSp a n).poison = s.poison := rfl
@[simp] theorem State.healSp_hostBad (s : State) (a n : Nat) : (s.healSp a n).hostBad = s.hostBad := rfl
@[simp] theorem State.healSp_slots (s : State) (a n : Nat) : (s.healSp a n).slots = s.slots := rfl
@[simp] theorem State.healSp_cores (s : State) (a n : Nat) : (s.healSp a n).cores = s.cores := rfl
@[simp] theorem State.healSp_lathes (s : State) (a n : Nat) : (s.healSp a n).lathes = s.lathes := rfl
@[simp] theorem State.healSp_clusters (s : State) (a n : Nat) : (s.healSp a n).clusters = s.clusters := rfl
@[simp] theorem State.healSp_tiles (s : State) (a n : Nat) : (s.healSp a n).tiles = s.tiles := rfl
@[simp] theorem State.healSp_dies (s : State) (a n : Nat) : (s.healSp a n).dies = s.dies := rfl
@[simp] theorem State.healSp_dieBarriers (s : State) (a n : Nat) : (s.healSp a n).dieBarriers = s.dieBarriers := rfl
@[simp] theorem State.healSp_modBarriers (s : State) (a n : Nat) : (s.healSp a n).modBarriers = s.modBarriers := rfl
@[simp] theorem State.healSp_slices (s : State) (a n : Nat) : (s.healSp a n).slices = s.slices := rfl
@[simp] theorem State.healSp_ctxs (s : State) (a n : Nat) : (s.healSp a n).ctxs = s.ctxs := rfl
@[simp] theorem State.healSp_launches (s : State) (a n : Nat) : (s.healSp a n).launches = s.launches := rfl
@[simp] theorem State.healSp_images (s : State) (a n : Nat) : (s.healSp a n).images = s.images := rfl
@[simp] theorem State.healSp_mesh (s : State) (a n : Nat) : (s.healSp a n).mesh = s.mesh := rfl
@[simp] theorem State.healSp_links (s : State) (a n : Nat) : (s.healSp a n).links = s.links := rfl
@[simp] theorem State.healSp_hostMode (s : State) (a n : Nat) : (s.healSp a n).hostMode = s.hostMode := rfl
@[simp] theorem State.healSp_mgmt (s : State) (a n : Nat) : (s.healSp a n).mgmt = s.mgmt := rfl

/-! ### `spWrite` -/

@[simp] theorem State.spWrite_ctl (s : State) (a : Nat) (z : Bool) (bs : List Byte) : (s.spWrite a z bs).ctl = s.ctl := by
  induction bs generalizing s a with
  | nil => rfl
  | cons b r ih => simp [State.spWrite, ih]
@[simp] theorem State.spWrite_cycle (s : State) (a : Nat) (z : Bool) (bs : List Byte) : (s.spWrite a z bs).cycle = s.cycle := by
  induction bs generalizing s a with
  | nil => rfl
  | cons b r ih => simp [State.spWrite, ih]
@[simp] theorem State.spWrite_hbm (s : State) (a : Nat) (z : Bool) (bs : List Byte) : (s.spWrite a z bs).hbm = s.hbm := by
  induction bs generalizing s a with
  | nil => rfl
  | cons b r ih => simp [State.spWrite, ih]
@[simp] theorem State.spWrite_host (s : State) (a : Nat) (z : Bool) (bs : List Byte) : (s.spWrite a z bs).host = s.host := by
  induction bs generalizing s a with
  | nil => rfl
  | cons b r ih => simp [State.spWrite, ih]
@[simp] theorem State.spWrite_marked (s : State) (a : Nat) (z : Bool) (bs : List Byte) : (s.spWrite a z bs).marked = s.marked := by
  induction bs generalizing s a with
  | nil => rfl
  | cons b r ih => simp [State.spWrite, ih]
@[simp] theorem State.spWrite_poison (s : State) (a : Nat) (z : Bool) (bs : List Byte) : (s.spWrite a z bs).poison = s.poison := by
  induction bs generalizing s a with
  | nil => rfl
  | cons b r ih => simp [State.spWrite, ih]
@[simp] theorem State.spWrite_spPoison (s : State) (a : Nat) (z : Bool) (bs : List Byte) : (s.spWrite a z bs).spPoison = s.spPoison := by
  induction bs generalizing s a with
  | nil => rfl
  | cons b r ih => simp [State.spWrite, ih]
@[simp] theorem State.spWrite_hostBad (s : State) (a : Nat) (z : Bool) (bs : List Byte) : (s.spWrite a z bs).hostBad = s.hostBad := by
  induction bs generalizing s a with
  | nil => rfl
  | cons b r ih => simp [State.spWrite, ih]
@[simp] theorem State.spWrite_slots (s : State) (a : Nat) (z : Bool) (bs : List Byte) : (s.spWrite a z bs).slots = s.slots := by
  induction bs generalizing s a with
  | nil => rfl
  | cons b r ih => simp [State.spWrite, ih]
@[simp] theorem State.spWrite_cores (s : State) (a : Nat) (z : Bool) (bs : List Byte) : (s.spWrite a z bs).cores = s.cores := by
  induction bs generalizing s a with
  | nil => rfl
  | cons b r ih => simp [State.spWrite, ih]
@[simp] theorem State.spWrite_lathes (s : State) (a : Nat) (z : Bool) (bs : List Byte) : (s.spWrite a z bs).lathes = s.lathes := by
  induction bs generalizing s a with
  | nil => rfl
  | cons b r ih => simp [State.spWrite, ih]
@[simp] theorem State.spWrite_clusters (s : State) (a : Nat) (z : Bool) (bs : List Byte) : (s.spWrite a z bs).clusters = s.clusters := by
  induction bs generalizing s a with
  | nil => rfl
  | cons b r ih => simp [State.spWrite, ih]
@[simp] theorem State.spWrite_tiles (s : State) (a : Nat) (z : Bool) (bs : List Byte) : (s.spWrite a z bs).tiles = s.tiles := by
  induction bs generalizing s a with
  | nil => rfl
  | cons b r ih => simp [State.spWrite, ih]
@[simp] theorem State.spWrite_dies (s : State) (a : Nat) (z : Bool) (bs : List Byte) : (s.spWrite a z bs).dies = s.dies := by
  induction bs generalizing s a with
  | nil => rfl
  | cons b r ih => simp [State.spWrite, ih]
@[simp] theorem State.spWrite_dieBarriers (s : State) (a : Nat) (z : Bool) (bs : List Byte) : (s.spWrite a z bs).dieBarriers = s.dieBarriers := by
  induction bs generalizing s a with
  | nil => rfl
  | cons b r ih => simp [State.spWrite, ih]
@[simp] theorem State.spWrite_modBarriers (s : State) (a : Nat) (z : Bool) (bs : List Byte) : (s.spWrite a z bs).modBarriers = s.modBarriers := by
  induction bs generalizing s a with
  | nil => rfl
  | cons b r ih => simp [State.spWrite, ih]
@[simp] theorem State.spWrite_slices (s : State) (a : Nat) (z : Bool) (bs : List Byte) : (s.spWrite a z bs).slices = s.slices := by
  induction bs generalizing s a with
  | nil => rfl
  | cons b r ih => simp [State.spWrite, ih]
@[simp] theorem State.spWrite_ctxs (s : State) (a : Nat) (z : Bool) (bs : List Byte) : (s.spWrite a z bs).ctxs = s.ctxs := by
  induction bs generalizing s a with
  | nil => rfl
  | cons b r ih => simp [State.spWrite, ih]
@[simp] theorem State.spWrite_launches (s : State) (a : Nat) (z : Bool) (bs : List Byte) : (s.spWrite a z bs).launches = s.launches := by
  induction bs generalizing s a with
  | nil => rfl
  | cons b r ih => simp [State.spWrite, ih]
@[simp] theorem State.spWrite_images (s : State) (a : Nat) (z : Bool) (bs : List Byte) : (s.spWrite a z bs).images = s.images := by
  induction bs generalizing s a with
  | nil => rfl
  | cons b r ih => simp [State.spWrite, ih]
@[simp] theorem State.spWrite_mesh (s : State) (a : Nat) (z : Bool) (bs : List Byte) : (s.spWrite a z bs).mesh = s.mesh := by
  induction bs generalizing s a with
  | nil => rfl
  | cons b r ih => simp [State.spWrite, ih]
@[simp] theorem State.spWrite_links (s : State) (a : Nat) (z : Bool) (bs : List Byte) : (s.spWrite a z bs).links = s.links := by
  induction bs generalizing s a with
  | nil => rfl
  | cons b r ih => simp [State.spWrite, ih]
@[simp] theorem State.spWrite_hostMode (s : State) (a : Nat) (z : Bool) (bs : List Byte) : (s.spWrite a z bs).hostMode = s.hostMode := by
  induction bs generalizing s a with
  | nil => rfl
  | cons b r ih => simp [State.spWrite, ih]
@[simp] theorem State.spWrite_mgmt (s : State) (a : Nat) (z : Bool) (bs : List Byte) : (s.spWrite a z bs).mgmt = s.mgmt := by
  induction bs generalizing s a with
  | nil => rfl
  | cons b r ih => simp [State.spWrite, ih]

/-! ### `codePc` (R200) -/

theorem codePc_toNat (a : Nat) : (codePc a).toNat = a / 4 * 4 % 2 ^ 56 := rfl
theorem codePc_mod_four (a : Nat) : (codePc a).toNat % 4 = 0 := by rw [codePc_toNat]; omega

end Sys2Proof.Machine
end

