-- ==== Sys2Proof/Laws/Memory.lean ====
section
/-! SUPPORT. What the writes of memory do: the bytes they store, the bytes they leave, and the canonical form they keep. -/

namespace Sys2Proof.Machine

theorem memoriesWf_congr {s t : State} (h : t.hbm = s.hbm) (hp : t.sp = s.sp) (hh : t.host = s.host) (w : memoriesWf s) : memoriesWf t := by
  unfold memoriesWf
  rw [h, hp, hh]
  exact w

theorem memoriesWf_reset : memoriesWf State.reset := ⟨rfl, rfl, rfl⟩

/-! ### Module HBM -/

theorem State.hbmWrite_bytes (s : State) (a : Nat) (bs : List Byte) : (s.hbmWrite a bs).hbm = Memory.writeBytes s.hbm a bs := rfl

theorem memoriesWf_hbmWrite (s : State) (a : Nat) (bs : List Byte) (w : memoriesWf s) : memoriesWf (s.hbmWrite a bs) :=
  ⟨Memory.wf_writeBytes bs s.hbm a w.1, w.2.1, w.2.2⟩

theorem memoriesWf_hbmWriteNat (s : State) (a n v : Nat) (w : memoriesWf s) : memoriesWf (s.hbmWriteNat a n v) :=
  memoriesWf_hbmWrite s a _ w

/-- A write of HBM changes no byte outside its range. -/
theorem State.hbmWrite_outside (s : State) (a x : Nat) (bs : List Byte) (h : x < a ∨ a + bs.length ≤ x) :
    Memory.readByte (s.hbmWrite a bs).hbm x = Memory.readByte s.hbm x :=
  Memory.readByte_writeBytes_outside bs s.hbm a x h

/-! ### Scratchpad -/

/-- A write through either view stores the bytes at their addresses (R42, R68). -/
theorem State.spWrite_bytes (bs : List Byte) : ∀ (s : State) (a : Nat) (z : Bool), (s.spWrite a z bs).sp = Memory.writeBytes s.sp a bs := by
  induction bs with
  | nil => intro s a z; rfl
  | cons b r ih =>
    intro s a z
    rw [State.spWrite, ih]
    rfl

theorem memoriesWf_spWrite (s : State) (a : Nat) (z : Bool) (bs : List Byte) (w : memoriesWf s) : memoriesWf (s.spWrite a z bs) := by
  refine ⟨?_, ?_, ?_⟩
  · rw [State.spWrite_hbm]; exact w.1
  · rw [State.spWrite_bytes]; exact Memory.wf_writeBytes bs s.sp a w.2.1
  · rw [State.spWrite_host]; exact w.2.2

/-- A write of scratchpad changes no byte outside its range. -/
theorem State.spWrite_outside (s : State) (a x : Nat) (z : Bool) (bs : List Byte) (h : x < a ∨ a + bs.length ≤ x) :
    Memory.readByte (s.spWrite a z bs).sp x = Memory.readByte s.sp x := by
  rw [State.spWrite_bytes]
  exact Memory.readByte_writeBytes_outside bs s.sp a x h

theorem memoriesWf_viewJoin (s : State) (a n : Nat) (w : memoriesWf s) : memoriesWf (s.viewJoin a n) := w
theorem memoriesWf_healSp (s : State) (a n : Nat) (w : memoriesWf s) : memoriesWf (s.healSp a n) := w

/-! ### Host memory -/

theorem memoriesWf_hostWrite (s : State) (a : Nat) (bs : List Byte) (w : memoriesWf s) :
    memoriesWf { s with host := Memory.writeBytes s.host a bs } :=
  ⟨w.1, w.2.1, Memory.wf_writeBytes bs s.host a w.2.2⟩

end Sys2Proof.Machine
end

