-- ==== Sys2Proof/Laws/Engine.lean ====
section
/-! SUPPORT. What a translation by an engine, a trap record, and the fetch of a bundle can change: no slot, Lathe, tile or byte of
scratchpad, and not the place that acts. -/

namespace Sys2Proof.Machine

/-- What the page unit, the record of a trap and a fetch leave as it is. -/
structure EngineKeeps (s t : State) : Prop where
  lathes : t.lathes = s.lathes
  slots : t.slots = s.slots
  tiles : t.tiles = s.tiles
  sp : t.sp = s.sp
  cycle : t.cycle = s.cycle
  place : t.ctl.at_ = s.ctl.at_
  wf : memoriesWf s → memoriesWf t

theorem EngineKeeps.refl (s : State) : EngineKeeps s s := ⟨rfl, rfl, rfl, rfl, rfl, rfl, id⟩

theorem EngineKeeps.trans {s t u : State} (a : EngineKeeps s t) (b : EngineKeeps t u) : EngineKeeps s u :=
  ⟨b.lathes.trans a.lathes, b.slots.trans a.slots, b.tiles.trans a.tiles, b.sp.trans a.sp, b.cycle.trans a.cycle, b.place.trans a.place,
   fun w => b.wf (a.wf w)⟩

theorem setCtx_keeps (s : State) (n : Nat) (c : Ctx) : EngineKeeps s (s.setCtx n c) := ⟨rfl, rfl, rfl, rfl, rfl, rfl, id⟩
theorem setMpage_keeps (s : State) (n v : Nat) (p : MPage) : EngineKeeps s (s.setMpage n v p) := setCtx_keeps s n _
theorem tookFree_keeps (s : State) : EngineKeeps s s.tookFree := ⟨rfl, rfl, rfl, rfl, rfl, rfl, id⟩
theorem post_keeps (s : State) (d : Nat) (m : Msg) : EngineKeeps s (s.post d m) := ⟨rfl, rfl, rfl, rfl, rfl, rfl, id⟩
theorem hbmWrite_keeps (s : State) (a : Nat) (bs : List Byte) : EngineKeeps s (s.hbmWrite a bs) :=
  ⟨rfl, rfl, rfl, rfl, rfl, rfl, memoriesWf_hbmWrite s a bs⟩
theorem egress_keeps (s : State) (cl n : Nat) (p : Packet) (w : LinkWho) : EngineKeeps s (s.egress cl n p w) :=
  ⟨rfl, rfl, rfl, rfl, rfl, rfl, id⟩

theorem hbmWriteNat_keeps (s : State) (a n v : Nat) : EngineKeeps s (s.hbmWriteNat a n v) := hbmWrite_keeps s a _

theorem ite_keeps {s a b : State} {c : Prop} [Decidable c] (ha : EngineKeeps s a) (hb : EngineKeeps s b) :
    EngineKeeps s (if c then a else b) := by
  split
  · exact ha
  · exact hb

/-- R332, R333: writing a trap record. -/
theorem writeRecord_keeps (s : State) (r : TrapRec) (i : Nat) : EngineKeeps s (s.writeRecord r i) := by
  unfold State.writeRecord
  extract_lets c base a count s1 cvec
  have h1 : EngineKeeps s s1 := (hbmWrite_keeps s _ _).trans (hbmWriteNat_keeps _ _ _ _)
  generalize s1 = t at h1 ⊢
  exact ite_keeps h1 (EngineKeeps.trans h1 (post_keeps t _ _))

theorem putRecord_keeps (s : State) (r : TrapRec) (i : Nat) : EngineKeeps s (s.putRecord r i) := by
  unfold State.putRecord
  exact (setCtx_keeps s r.ctx _).trans (writeRecord_keeps _ r i)

theorem record_keeps (s : State) (r : TrapRec) (w : Option Waiter) : EngineKeeps s (s.record r w).1 := by
  unfold State.record
  generalize s.ringIndex r.ctx = x
  generalize s.inTurn r = b
  cases x with
  | none => dsimp only; exact setCtx_keeps s r.ctx _
  | some i => cases b <;> dsimp only
              · exact setCtx_keeps s r.ctx _
              · exact putRecord_keeps s r i

theorem ctxTrap_keeps (s : State) (n cause reason : Nat) (f x : Word64) : EngineKeeps s (s.ctxTrap n cause reason f x) := record_keeps s _ _

/-- A fold of steps that each keep these. -/
theorem foldl_keeps {α : Type} (f : State → α → State) (h : ∀ s x, EngineKeeps s (f s x)) (l : List α) : ∀ s, EngineKeeps s (l.foldl f s) := by
  induction l with
  | nil => exact EngineKeeps.refl
  | cons x r ih => exact fun s => (h s x).trans (ih (f s x))

/-- R176: the page unit gives frames and forces evictions. -/
theorem pageServiceBut_keeps (s : State) (n : Nat) (but : Option Nat) : EngineKeeps s (s.pageServiceBut n but) := by
  unfold State.pageServiceBut
  refine foldl_keeps _ (fun t v => ?_) _ _
  dsimp only
  split
  · exact (setCtx_keeps t _ _).trans (setMpage_keeps _ _ _ _)
  · split
    · exact (setMpage_keeps t _ _ _).trans (setMpage_keeps _ _ _ _)
    · split
      · exact EngineKeeps.refl t
      · exact (setMpage_keeps t _ _ _).trans (ctxTrap_keeps _ _ _ _ _ _)

theorem pageService_keeps (s : State) (n : Nat) : EngineKeeps s (s.pageService n) := pageServiceBut_keeps s n none

theorem touchPage_keeps (s : State) (n v e cl : Nat) : EngineKeeps s (s.touchPage n v e cl) := by
  unfold State.touchPage
  split
  · exact EngineKeeps.refl s
  · exact setMpage_keeps s _ _ _
  · exact ((tookFree_keeps s).trans (setMpage_keeps _ _ _ _)).trans (pageService_keeps _ _)

theorem abandon_keeps (s : State) (e : Nat) : EngineKeeps s (s.abandon e) := by
  unfold State.abandon
  split
  · refine EngineKeeps.trans ?_ (pageServiceBut_keeps _ _ _)
    split
    · exact (setMpage_keeps s _ _ _).trans (setCtx_keeps _ _ _)
    · exact setMpage_keeps s _ _ _
  · exact EngineKeeps.refl s

theorem abandonAt_keeps (s : State) (n va : Nat) : EngineKeeps s (s.abandonAt n va) := by
  unfold State.abandonAt
  split
  · exact abandon_keeps s _
  · exact EngineKeeps.refl s

theorem setDie_keeps (s : State) (n : Nat) (d : Die) : EngineKeeps s (s.setDie n d) := ⟨rfl, rfl, rfl, rfl, rfl, rfl, id⟩

theorem askWalk_keeps (s : State) (n va : Nat) (r : WalkReq) : EngineKeeps s (s.askWalk n va r) := by
  unfold State.askWalk
  dsimp only
  split <;> exact setDie_keeps s _ _

/-- R172: a requester joins a walk. -/
theorem joinWalk_keeps (s : State) (n : Nat) (r : WalkReq) : EngineKeeps s (s.joinWalk n r) := by
  unfold State.joinWalk
  split
  · exact EngineKeeps.refl s
  · exact askWalk_keeps s _ _ _

/-- R172: a request has been answered. -/
theorem unask_keeps (s : State) (n : Nat) (r : WalkReq) : EngineKeeps s (s.unask n r) := by
  unfold State.unask
  dsimp only
  split
  · exact setDie_keeps s _ _
  · exact EngineKeeps.refl s

/-- R170 to R172, R373: a passed walk. -/
theorem walkUsed_keeps (s : State) (cl n va lvl a e : Nat) (acc : Acc3) : EngineKeeps s (s.walkUsed cl n va lvl a e acc) := by
  unfold State.walkUsed State.tlbFill State.markFrames State.hbmWriteNat
  dsimp only
  split
  · exact (hbmWrite_keeps s _ _).trans ⟨rfl, rfl, rfl, rfl, rfl, rfl, id⟩
  · exact (hbmWrite_keeps s _ _).trans ⟨rfl, rfl, rfl, rfl, rfl, rfl, id⟩

theorem translate_keeps (s : State) (cl n va : Nat) (acc : Acc3) (user exempt : Bool) :
    EngineKeeps s (s.translate cl n va acc user exempt).1 := by
  unfold State.translate
  split
  · split
    · exact EngineKeeps.refl s
    · exact EngineKeeps.refl s
    · split
      · exact EngineKeeps.refl s
      · exact walkUsed_keeps s _ _ _ _ _ _ _
  · exact EngineKeeps.refl s

theorem engineXlate_keeps (s : State) (w : Waiter) (cl n va : Nat) (acc : Acc3) (user exempt : Bool) :
    EngineKeeps s (s.engineXlate w cl n va acc user exempt).1 := by
  have ht := translate_keeps s cl n va acc user exempt
  unfold State.engineXlate
  dsimp only
  split
  · exact unask_keeps s _ _
  · split
    · split
      · exact joinWalk_keeps s _ _
      · split
        · rename_i h; rw [h] at ht; exact ht.trans (abandonAt_keeps _ _ _)
        · rename_i h; rw [h] at ht; exact ht.trans (touchPage_keeps _ _ _ _ _)
        · exact ht
    · exact unask_keeps s _ _

/-- R207: a word of a bundle is fetched. -/
theorem codeWord_keeps (s : State) (l va : Nat) : EngineKeeps s (s.codeWord l va).1 := by
  have hx := engineXlate_keeps s (.code l) (l / 4) (s.lathe l).ctx va .fetch true false
  unfold State.codeWord
  dsimp only
  split
  · split
    · rename_i h; rw [h] at hx; exact hx
    · rename_i h
      rw [h] at hx
      split
      · exact hx
      · split <;> exact hx
      · split <;> exact hx
      · split
        · split <;> exact hx
        · split
          · exact hx
          · exact hx.trans (egress_keeps _ _ _ _ _)
    · rename_i h; rw [h] at hx; exact hx
  · exact EngineKeeps.refl s

/-- What comes after a read that keeps these, and keeps them. -/
theorem cThen_keeps {α β : Type} {s : State} {r : State × CRes α} {f : State → α → State × CRes β} (hr : EngineKeeps s r.1)
    (hf : ∀ t v, EngineKeeps t (f t v).1) : EngineKeeps s (cThen r f).1 := by
  obtain ⟨t, x⟩ := r
  cases x with
  | ok v => exact EngineKeeps.trans hr (hf t v)
  | bad _ _ _ => exact hr
  | wait => exact hr

theorem codeWords_keeps (n : Nat) : ∀ (s : State) (l va : Nat), EngineKeeps s (s.codeWords l va n).1 := by
  induction n with
  | zero => exact fun s _ _ => EngineKeeps.refl s
  | succ n ih =>
    exact fun s l va => cThen_keeps (codeWord_keeps s l va) (fun t w => cThen_keeps (ih t l _) (fun u _ => EngineKeeps.refl u))

/-- The fetch of a bundle: the state after its head word, and the state after its other words. -/
theorem bundleWords_keeps (s : State) (l va : Nat) : EngineKeeps s (s.bundleWords l va).1 :=
  cThen_keeps (codeWord_keeps s l va) (fun t _ => EngineKeeps.refl t)

theorem bundleWords_rest (s s0 s1 : State) (l va : Nat) (h : Word32) (ws : List Word32)
    (e : s.bundleWords l va = (s0, .ok (h, s1, .ok ws))) : EngineKeeps s s1 := by
  have hk := codeWord_keeps s l va
  unfold State.bundleWords at e
  generalize s.codeWord l va = r at e hk
  obtain ⟨t, x⟩ := r
  cases x with
  | ok w =>
    simp only [cThen, Prod.mk.injEq, CRes.ok.injEq] at e
    obtain ⟨-, rfl, e2⟩ := e
    have := codeWords_keeps (presentSlots w).length t l ((va + 4) % 2 ^ 56)
    rw [e2] at this
    exact EngineKeeps.trans hk this
  | bad _ _ _ => simp [cThen] at e
  | wait => simp [cThen] at e

end Sys2Proof.Machine
end

