-- ==== Sys2Proof/Laws/Links.lean ====
section
/-! SUPPORT. The CRC of flits: it keeps to 64 bits, and an evaluation of it that computes each byte's value before the next (R189, Table 13-3). -/

namespace Sys2Proof.Machine

theorem crcBit_lt {c : Nat} (h : c < 2 ^ 64) : crcBit c < 2 ^ 64 := by
  unfold crcBit
  split
  · omega
  · exact Nat.xor_lt_two_pow (Nat.mod_lt _ (by decide)) (by decide)

/-- One byte of the CRC. -/
def crcByte (c : Nat) (b : Byte) : Nat := crcBit (crcBit (crcBit (crcBit (crcBit (crcBit (crcBit (crcBit (c ^^^ b.toNat * 2 ^ 56))))))))

theorem crcByte_lt {c : Nat} (h : c < 2 ^ 64) (b : Byte) : crcByte c b < 2 ^ 64 := by
  have hx : c ^^^ b.toNat * 2 ^ 56 < 2 ^ 64 := Nat.xor_lt_two_pow h (by have := b.isLt; omega)
  exact crcBit_lt (crcBit_lt (crcBit_lt (crcBit_lt (crcBit_lt (crcBit_lt (crcBit_lt (crcBit_lt hx)))))))

/-- The CRC with the value after each byte tested, and so computed, before the next byte. -/
def crcForced (c : Nat) : List Byte → Nat
  | [] => c
  | b :: r => if crcByte c b < 2 ^ 64 then crcForced (crcByte c b) r else 0

theorem crcForced_eq (l : List Byte) : ∀ c, c < 2 ^ 64 → crcForced c l = crcBytes c l := by
  induction l with
  | nil => intro c _; rfl
  | cons b r ih =>
    intro c h
    rw [crcForced, if_pos (crcByte_lt h b), ih _ (crcByte_lt h b)]
    rfl

theorem flitCrc_forced (l : List Byte) : flitCrc l = 2 ^ 64 - 1 - crcForced (2 ^ 64 - 1) l := by
  rw [flitCrc, crcForced_eq _ _ (by decide)]

end Sys2Proof.Machine
end

