-- ==== Sys2Proof/Laws/Operands.lean ====
section
/-! SUPPORT. What the shared operations of spindle instructions do: reading operands, writing a result, going on. -/

namespace Sys2Proof.Machine

/-! ### Units -/

@[simp] theorem State.slot_setSlot_self (s : State) (k : Nat) (x : Slot) : (s.setSlot k x).slot k = x := by
  simp [State.slot, State.setSlot]

theorem State.slot_setSlot_ne (s : State) {k k' : Nat} (x : Slot) (h : k' ≠ k) : (s.setSlot k x).slot k' = s.slot k' := by
  simp [State.slot, State.setSlot, Map.get_set_ne _ _ _ h]

@[simp] theorem State.key_setSlot (s : State) (k : Nat) (x : Slot) : (s.setSlot k x).key = s.key := rfl
@[simp] theorem State.key_setCur (s : State) (x : Slot) : (s.setCur x).key = s.key := rfl
@[simp] theorem State.coreNo_setCur (s : State) (x : Slot) : (s.setCur x).coreNo = s.coreNo := rfl

@[simp] theorem State.cur_setCur (s : State) (x : Slot) : (s.setCur x).cur = x := by
  simp [State.cur, State.setCur]

theorem State.slot_setCur_ne (s : State) {k : Nat} (x : Slot) (h : k ≠ s.key) : (s.setCur x).slot k = s.slot k :=
  State.slot_setSlot_ne s x h

@[simp] theorem State.core_setCore_self (s : State) (n : Nat) (x : Core) : (s.setCore n x).core n = x := by
  simp [State.core, State.setCore]

theorem State.core_setCore_ne (s : State) {n n' : Nat} (x : Core) (h : n' ≠ n) : (s.setCore n x).core n' = s.core n' := by
  simp [State.core, State.setCore, Map.get_set_ne _ _ _ h]

@[simp] theorem State.ctx_setCtx_self (s : State) (n : Nat) (x : Ctx) : (s.setCtx n x).ctx n = x := by
  simp [State.ctx, State.setCtx]

theorem State.ctx_setCtx_ne (s : State) {n n' : Nat} (x : Ctx) (h : n' ≠ n) : (s.setCtx n x).ctx n' = s.ctx n' := by
  simp [State.ctx, State.setCtx, Map.get_set_ne _ _ _ h]

@[simp] theorem State.lathe_setLathe_self (s : State) (n : Nat) (x : Lathe) : (s.setLathe n x).lathe n = x := by
  simp [State.lathe, State.setLathe]

@[simp] theorem State.tile_setTile_self (s : State) (n : Nat) (x : Tile) : (s.setTile n x).tile n = x := by
  simp [State.tile, State.setTile]

@[simp] theorem State.cluster_setCluster_self (s : State) (n : Nat) (x : Cluster) : (s.setCluster n x).cluster n = x := by
  simp [State.cluster, State.setCluster]

@[simp] theorem State.die_setDie_self (s : State) (n : Nat) (x : Die) : (s.setDie n x).die n = x := by
  simp [State.die, State.setDie]

@[simp] theorem State.slice_setSlice_self (s : State) (n : Nat) (x : Slice) : (s.setSlice n x).slice n = x := by
  simp [State.slice, State.setSlice]

/-! ### Registers -/

@[simp] theorem Slot.reg_fillReg_self (x : Slot) (r : Nat) (v : Word64) (dep : Nat) :
    (x.fillReg r v dep).reg r = { st := .full, v := v, dep := dep } := by simp [Slot.reg, Slot.fillReg]

theorem Slot.reg_fillReg_ne (x : Slot) {r r' : Nat} (v : Word64) (dep : Nat) (h : r' ≠ r) :
    (x.fillReg r v dep).reg r' = x.reg r' := by simp [Slot.reg, Slot.fillReg, Map.get_set_ne _ _ _ h]

@[simp] theorem Slot.reg_pendReg_self (x : Slot) (r : Nat) : (x.pendReg r).reg r = { st := .pending, v := 0, dep := 0 } := by
  simp [Slot.reg, Slot.pendReg]

theorem Slot.reg_pendReg_ne (x : Slot) {r r' : Nat} (h : r' ≠ r) : (x.pendReg r).reg r' = x.reg r' := by
  simp [Slot.reg, Slot.pendReg, Map.get_set_ne _ _ _ h]

@[simp] theorem Slot.reg_emptyReg_self (x : Slot) (r : Nat) : (x.emptyReg r).reg r = {} := by simp [Slot.reg, Slot.emptyReg]

theorem Slot.reg_emptyReg_ne (x : Slot) {r r' : Nat} (h : r' ≠ r) : (x.emptyReg r).reg r' = x.reg r' := by
  simp [Slot.reg, Slot.emptyReg, Map.get_set_ne _ _ _ h]

@[simp] theorem Slot.reg_advance (x : Slot) (r : Nat) : x.advance.reg r = x.reg r := rfl

/-! ### Operands -/

theorem awaited_nil {x : Slot} {srcs : List Src} {dsts : List (BitVec 5)}
    (hs : ∀ r ∈ srcs.map (·.1), (x.reg r.toNat).st = .full) (hd : ∀ r ∈ dsts, (x.reg r.toNat).st ≠ .pending) :
    awaited x srcs dsts = [] := by
  simp only [awaited, List.append_eq_nil_iff, List.filter_eq_nil_iff, List.mem_map, decide_eq_true_eq, forall_exists_index,
    and_imp, forall_apply_eq_imp_iff₂, not_not]
  exact ⟨fun p hp => hs _ (List.mem_map_of_mem hp), fun r hr => hd r hr⟩

theorem emptyTrap_false {x : Slot} {srcs : List Src} (hs : ∀ r ∈ srcs.map (·.1), (x.reg r.toNat).st = .full) :
    emptyTrap x srcs = false := by
  simp only [emptyTrap, List.any_eq_false, Bool.and_eq_true, decide_eq_true_eq, not_and]
  intro p hp _ he
  rw [hs _ (List.mem_map_of_mem hp)] at he
  cases he

/-- A slot that is ready executes the instruction's own effect. -/
theorem operands_ready {i : Instr} {srcs : List Src} {dsts : List (BitVec 5)} {s : State} {f : State → State}
    (h : Ready s i (srcs.map (·.1)) dsts) : operands i srcs dsts s f = .next (f s) := by
  simp [operands, h.1, emptyTrap_false h.2.1, awaited_nil h.2.1 h.2.2]

/-- A word that breaks a limit of its fields traps. -/
theorem operands_illegal {i : Instr} {srcs : List Src} {dsts : List (BitVec 5)} {s : State} {f : State → State}
    (h : wellFormed i = false) : operands i srcs dsts s f = .next (s.trap tILLEGAL) := by simp [operands, h]

/-- Whatever the operands are, the slot goes on: it traps, parks, or executes the effect. -/
theorem operands_cases (i : Instr) (srcs : List Src) (dsts : List (BitVec 5)) (s : State) (f : State → State) :
    operands i srcs dsts s f = .next (s.trap tILLEGAL) ∨ operands i srcs dsts s f = .next (s.trap tEMPTY_READ) ∨
    (∃ rs, operands i srcs dsts s f = .next (s.park rs)) ∨ operands i srcs dsts s f = .next (f s) := by
  unfold operands
  split
  · split
    · exact .inr (.inl rfl)
    · split
      · exact .inr (.inr (.inr rfl))
      · exact .inr (.inr (.inl ⟨_, rfl⟩))
  · exact .inl rfl

theorem operands_goesOn (i : Instr) (srcs : List Src) (dsts : List (BitVec 5)) (s : State) (f : State → State) :
    goesOn (operands i srcs dsts s f) := by
  rcases operands_cases i srcs dsts s f with h | h | ⟨_, h⟩ | h <;> exact ⟨_, h⟩

/-! ### Results -/

theorem onlySlot_setCur (s : State) (x : Slot) : OnlySlot s (s.setCur x) :=
  ⟨rfl, fun _ h => State.slot_setCur_ne s x h⟩

theorem result_wroteReg (s : State) (d : BitVec 5) (srcs : List (BitVec 5)) (v : Word64) : WroteReg s (s.result d srcs v) d v := by
  refine ⟨onlySlot_setCur s _, ?_, ?_, ?_, ?_⟩
  · simp [AtPc, State.result, Slot.advance, Slot.fillReg]
  · intro r hr; simp [State.result, Slot.reg_fillReg_ne _ _ _ hr]
  · simp [State.result]
  · simp [State.result]

theorem pend_lateReg (s : State) (d : BitVec 5) (v : Word64) (dep n : Nat) :
    LateReg s (s.pend d { reg := d.toNat, v := v, dep := dep, due := some (s.cycle + n) }) d n v := by
  refine ⟨onlySlot_setCur s _, ?_, ?_, ⟨{ reg := d.toNat, v := v, dep := dep, due := some (s.cycle + n) }, rfl, rfl, rfl, rfl, rfl, ?_⟩⟩
  · intro r hr; simpa [State.pend, Slot.reg, Slot.advance] using Slot.reg_pendReg_ne s.cur hr
  · simpa [State.pend, Slot.reg, Slot.advance] using congrArg Reg.st (Slot.reg_pendReg_self s.cur d.toNat)
  · simp [State.pend, Slot.advance, Slot.pendReg]

theorem skip_wentTo (s : State) : WentTo s s.skip (s.cur.pc + 4) := rfl

theorem unary_ready {i : Instr} {d a : BitVec 5} {ta : BitVec 1} {f : Word64 → Word64} {s : State} (h : Ready s i [a] [d]) :
    ∃ t, unary i d a ta f s = .next t ∧ WroteReg s t d (f (s.gr a)) :=
  ⟨_, operands_ready h, result_wroteReg s d _ _⟩

theorem binary_ready {i : Instr} {d a b : BitVec 5} {ta tb : BitVec 1} {f : Word64 → Word64 → Word64} {s : State}
    (h : Ready s i [a, b] [d]) : ∃ t, binary i d a b ta tb f s = .next t ∧ WroteReg s t d (f (s.gr a) (s.gr b)) :=
  ⟨_, operands_ready h, result_wroteReg s d _ _⟩

theorem ternary_ready {i : Instr} {d a b : BitVec 5} {ta tb : BitVec 1} {f : Word64 → Word64 → Word64 → Word64} {s : State}
    (h : Ready s i [a, b, d] [d]) :
    ∃ t, ternary i d a b ta tb f s = .next t ∧ WroteReg s t d (f (s.gr d) (s.gr a) (s.gr b)) :=
  ⟨_, operands_ready h, result_wroteReg s d _ _⟩

theorem binaryLate_ready {i : Instr} {d a b : BitVec 5} {ta tb : BitVec 1} {n : Nat} {f : Word64 → Word64 → Word64} {s : State}
    (h : Ready s i [a, b] [d]) : ∃ t, binaryLate i d a b ta tb n f s = .next t ∧ LateReg s t d n (f (s.gr a) (s.gr b)) :=
  ⟨_, operands_ready h, pend_lateReg s d _ _ n⟩

/-! ### Taking a trap (R330) -/

/-- R200: an address that is a multiple of 4 is installed as it is. -/
theorem codePc_aligned {a : Nat} (h : a % 4 = 0) : codePc a = BitVec.ofNat 56 a := by
  unfold codePc
  rw [Nat.div_mul_cancel (Nat.dvd_of_mod_eq_zero h)]

/-- A slot that can take a trap in place takes it. -/
theorem trapSlot_took {s : State} (h : Handles s) (info : TrapInfo) (pc : Nat) (tpc : BitVec 56) :
    TookTrap s (s.trapSlot s.key info pc tpc.toNat) info tpc := by
  obtain ⟨h1, h2, h3⟩ := h
  have e : s.trapSlot s.key info pc tpc.toNat = s.setCur { s.cur with
      hnd := true, pc := BitVec.ofNat 56 (s.hbmRead ((s.ctx s.cur.ctx).saveb * 4096 + 8) 8), st := .active, wait := .none
      awaiting := [], tcause := tcauseWord info.cause info.code info.status info.reason 0 false false false
      taddr := info.faddr, trec := 0, tpc := BitVec.ofNat 64 tpc.toNat } := by
    unfold State.trapSlot
    simp only [State.cur] at h1 h2 h3 ⊢
    simp only [h1, Bool.false_eq_true, ↓reduceIte, h2, codePc_aligned h3]
    rfl
  rw [e]
  refine ⟨onlySlot_setCur s _, ?_⟩
  simp [← BitVec.ofNat_toNat]

end Sys2Proof.Machine
end

