-- ==== Sys2Proof/Tests/Slice0.lean ====
section
/-! SUPPORT. Tests: ill-formed terms that the checks refuse, words written from the encoding tables, worked examples of the spec, and, for
every statement with hypotheses, concrete states and operands that meet them, clause by clause. -/

set_option Elab.async false

namespace Sys2Proof.Tests

open Sys2Proof.Machine Sys2Proof.Claims

/-! ### States -/

/-- A register that is FULL. -/
def full (v : Nat) : Reg := { st := .full, v := BitVec.ofNat 64 v }

/-- g0 to g7 FULL with n to n + 7. -/
def low (n : Nat) : Map Reg := (List.range 8).map (fun i => (i, full (n + i)))

/-- The addresses 0x80000, 0x100000 and 0x180000 of context 0 as pages of module HBM, of host memory and of module 5. -/
def tlb3 : Map TlbEntry :=
  [(3 * 2 ^ 37 + 1, { pa := 0x80000, w := true, x := true, d := true }), (3 * 2 ^ 37 + 2, { pa := 0x100000, tgt := 1, w := true, d := true }),
   (3 * 2 ^ 37 + 3, { pa := 0x180000, tgt := 2, rmod := 5, w := true, d := true })]

/-- A thread in slot 0 of core 0, of context 0, whose handler for slots is at 0x2000. -/
def one (x : Slot) : State :=
  { State.reset with
    slots := [(0, { x with st := .active, pc := 0x80000 })]
    ctxs := [(0, { st := .running, saveb := 1 })]
    hbm := [(0x1009, 0x20)]
    clusters := [(0, { tlb := tlb3 })] }

/-- The same with registers. -/
def regs (l : Map Reg) : State := one { regs := l }

/-- Scratchpad address 0x6000 of the thread's cluster, as a va. -/
def spVa : Nat := 0xFF000000006000

/-- The same, with bytes 0x80 to 0xFF at scratchpad address 0x6000, HBM address 0x80000 and host address 0x100000. -/
def data (l : Map Reg) : State :=
  let bs (a : Nat) : Memory := (List.range 128).map (fun i => (a + i, BitVec.ofNat 8 (128 + i)))
  { regs l with sp := bs 0x6000, hbm := (0x1009, 0x20) :: bs 0x80000, host := bs 0x100000 }

/-- The same, with g0 to g7 FULL. -/
def eight (l : Map Reg) (x : Slot := {}) : State := one { x with regs := low 100 ++ l }

/-- The machine with all slots of core 0 busy but slot 0, the thread's, and slot 3. -/
def crowded (s : State) : State := { s with slots := s.slots ++ ((List.range 15).map (· + 1)).filterMap (fun k => if k = 3 then none else some (k, { st := .active, tid := k })) }

/-- A shape of BF16 elements. -/
def shape64 : Shape := { fmt := 10, estr := 1, rows := 64, cols := 64, base := 0x8000, rstride := 128 }

/-- A machine with tile 2 of cluster 0, of handle 0x8500, bound to Lathe 1, which is bound to launch 64 of context 0. -/
def tiled (t : Tile) (l : Map Reg) : State :=
  { data l with tiles := [(2, { t with gen := 5, lathe := 1, shape := shape64 })], lathes := [(1, { bound := some 64 })] }

/-- The position word of bytes of a row. -/
def pos (row off lg : Nat) : Reg := full (row + off * 2 ^ 8 + lg * 2 ^ 23)

/-- Lathe 1 at its turn, bound to launch 64 of context 0, at address 0x80000. -/
def lat (x : Lathe) : State :=
  { data [] with ctl := { at_ := { lathe := 1 } }, lathes := [(1, { x with bound := some 64, pc := 0x80000 })], cycle := 100 }

/-- 32 words, or 64 halves, that differ. -/
def vec (n : Nat) : BitVec 2048 := (List.range 32).foldl (fun v i => v ||| (BitVec.ofNat 2048 ((n * (i + 1) * 0x01F3B7C9) % 2 ^ 32) <<< (64 * (31 - i)))) (BitVec.ofNat 2048 (n * 0x3F80000040000000))

/-- The same, with its vector registers v1 to v4 and scalar registers q1, q2. -/
def latV : State := lat { v := [(1, vec 1), (2, vec 3), (3, vec 5), (4, vec 7)], q := [(1, 0x80000005), (2, 35)] }

/-- The same, with tiles 2 and 3, of handles 0x8500 and 0xC500, in h1 and h2. -/
def latT (x : Lathe) (t u : Tile) : State :=
  { lat { x with h := [(1, 0x8500), (2, 0xC500)] } with
    tiles := [(2, { t with gen := 5, lathe := 1, shape := shape64 }), (3, { u with gen := 5, lathe := 1, shape := { shape64 with base := 0xA000 } })]
    sp := (List.range 300).map (fun i => (0x8000 + i, BitVec.ofNat 8 (1 + i % 200))) ++ (List.range 300).map (fun i => (0xA000 + i, BitVec.ofNat 8 (1 + i % 190))) }

/-- Lathes 0 to 3 of a gang, at an `xchg` each; Lathe 1 acts. -/
def gang (all : Bool) : State :=
  let at_ (i : Nat) : Bool := all || i != 1
  { latV with lathes := (List.range 4).map (fun i => (i, {
      bound := some 64
      pc := 0x80000
      v := [(1, vec (2 * i + 1))]
      atGang := at_ i
      held := if at_ i then some { addr := 0x80000, size := 8, ops := [(4, .xchg 2 1)], gang := true } else none })) }

/-- An accumulator with two rows, a softmax state in each. -/
def acc1 : Acc := { rows := [(0, vec 1), (1, vec 3)], m := [(0, 0x3F800000), (1, 0xBF800000)], l := [(0, 0x40000000), (1, 0x3F800000)], cv := BitVec.allOnes 64 }

/-- The bytes of a number that are not zero, at an address. -/
def poke (a n v : Nat) : Memory := ((List.range n).zip (leBytes n v)).filterMap (fun p => if p.2 = 0 then none else some (a + p.1, p.2))

/-- A module that is READY, with context 3. -/
def rdy (c : Ctx) : State := { State.reset with mgmt := { boot := .ready }, ctxs := [(3, c)] }

/-- The same, with an event to come at context 3. -/
def at3 (c : Ctx) : State := { rdy c with ctl := { at_ := { ctx := 3 } } }

/-- A launch record of one factor of 10 items, for cluster 0 and its Lathe 0, and its kernel header. -/
def recN : Nat :=
  0x80400 + (2 ^ 61 + 2 ^ 52 + 2 ^ 48 + 3 * 2 ^ 30) * 2 ^ 64 + 2 ^ 128 + 9 * 2 ^ 192 + 0x80100 * 2 ^ (64 * 9) + 5 * 2 ^ (64 * 10)
def hdrN : Nat :=
  0x4A4D4B31 * 2 ^ 480 + 2 ^ 472 + 2 * 2 ^ 448 + 0x40 * 2 ^ 416 + 0x100 * 2 ^ 352 + 0x100 * 2 ^ 320 + 0x40 * 2 ^ 256 + 0x200 * 2 ^ 224
def head0 : LaunchRec := launchOf 0x80000 (leBytes 192 recN) (leBytes 64 hdrN)

/-- Context 0 with that record in its launch queue 2, whose turn it is. -/
def launching (c : Ctx) (x : LaunchQueue) : State :=
  { data [] with
    ctl := { at_ := { q := 2 } }
    ctxs := [(0, { c with st := .running, queues := [(2, { x with entries := [{ rec_ := 0x80000, stamp := 0 }] })] })]
    hbm := poke 0x80000 192 recN ++ poke 0x80100 8 5 ++ poke 0x80400 64 hdrN }

/-- Context 0 with a hypothesis unit's queue, tree and toll, in the thread's machine; an event comes at context 0. -/
def hypAt (c : Ctx) : State := { one {} with ctl := {}, ctxs := [(0, { c with st := .running, saveb := 1 })], clusters := [] }

/-- The page tables of context 0, which map address 0x80000 by an entry, and a backing copy at host address 0x180000. -/
def pt (e : Nat) : Memory :=
  poke 0x10000 8 0x12001 ++ poke 0x12000 8 0x13001 ++ poke 0x13000 8 0x14001 ++ poke 0x14008 8 e ++ poke 0x15008 8 0x180000

/-- A thread under them, and an event to come at page 1 of its context. -/
def paged (e : Nat) (x : Slot) (c : Ctx) : State :=
  { one x with
    ctl := { at_ := { vpn := 1 } }
    ctxs := [(0, { c with st := .running, saveb := 1, ptroot := 0x10 })]
    clusters := [(0, { tlb := [(3 * 2 ^ 37 + 1, { pa := 0x100000 }), (3 * 2 ^ 37 + 2, { pa := 0x200000 })] })]
    hbm := pt e ++ poke 0x100000 2 0x305
    host := poke 0x180000 2 0x706
    mgmt := { boot := .ready } }

/-- What a READY cluster 0 transfers: a COPY of one BF16 element from scratchpad offset 0x6000 to 0x6100, by a cached block. -/
def copyReq : Request := { w := [BitVec.ofNat 64 (2 ^ 56 + 9 * 2 ^ 32), BitVec.ofNat 64 (10 * 2 ^ 59 + spVa), BitVec.ofNat 64 (10 * 2 ^ 59 + spVa + 0x100), 0x80000], id := 4 }
def copyBlk : List Word64 := [1, 0, 1, 0, 1, 0, 1, 0, 1, 0, 1, 0, 0x4000, 0, 0, 0]
def chucking (q : Request) : State :=
  { data [] with
    cores := [(0, { fifo := { entries := [q], pushed := [{ id := 4, xid := 9, ctx := 0 }] } })]
    clusters := [(0, { tlb := tlb3, rr := 19, pb := [{ addr := 0x80000, ctx := 0, hyp := 0, words := copyBlk, stamp := 0 }] })]
    ctxs := [(0, { st := .running, saveb := 1, budgets := { chuck := 0xFFFF, car := 0xFFFF } })]
    ctl := {} }

/-- A transfer of cluster 0 that is over, or whose row 1 is to be written. -/
def ending (x : Xfer) : State := { data [] with ctl := { at_ := { n := 7, idx := 1 } }, clusters := [(0, { tlb := tlb3, xfers := [x] })] }

/-- A SWEEP of two tokens in two slices, the rows of the result tile 2 still to be written. -/
def sweepX : Xfer :=
  { id := 7, req := { copyReq with w := [BitVec.ofNat 64 (8 * 2 ^ 56), BitVec.ofNat 64 (10 * 2 ^ 59), 0x8500, 0] }
    blk := [1, 0, 1, 0, 1, 0, 1, 0, 1, 0, 1, 0, 0x4000, 0, 2, 0x3F800000], accepted := true, stripes := [0x80000, 0x80100], rows := [0, 1], query := List.replicate 128 1, total := 2, pos := 2 }
def sweeping (poison : List Nat) : State :=
  { ending sweepX with
    poison := poison
    tiles := [(2, { st := .open_, gen := 5, target := 2, shape := { fmt := 9, estr := 1, rows := 4, cols := 193, base := 0x8000, rstride := 784 } })] }

/-- A module with port 2 up, the packets that it has received, and a link window that lets module 5 read, write and call at HBM. -/
def linked (l : List Packet) : State :=
  { data [] with
    ctl := { at_ := { port := 2 } }
    links := { lmod := 9, ports := [(2, { st := .up, en := true, rx := l })], windows := [(0, { lo := BitVec.ofNat 64 (2 ^ 63 + 15 * 2 ^ 58 + 1023 * 2 ^ 42), hi := BitVec.ofNat 64 (16 * 2 ^ 39 + 0x80000) }), (1, { lo := BitVec.ofNat 64 (2 ^ 63 + 2 ^ 62 + 1023 * 2 ^ 42) })] } }

/-- A packet from module 5. -/
def pkt (op len addr : Nat) (pay : List Byte) : Packet := { op := op, dst := 9, src := 5, len := len, tag := 77, addr := addr, pay := pay }

/-- A READ packet in a flit, with its CRC. -/
def flitIn : BitVec 2048 := BitVec.ofNat 2048 (2 ^ 64 * (pkt 2 7 0x80000 []).header.toNat + 2 ^ 1984 * 5249118362576217495)

/-- A mark job of a picture of 8 by 12 blocks at address 0x80000, whose page is a marked one. -/
def descN : Nat := 0x80000 + (8 * 2 ^ 16 + 12) * 2 ^ 64 + 128 * 2 ^ 128 + 0x200000 * 2 ^ 192 + 0x300000 * 2 ^ 256 + 9 * 2 ^ 320 + 3 * 2 ^ (384 + 32) + 5 * 2 ^ 448
def marking : State :=
  { paged 0x100023 {} {} with hbm := poke 0x1000 64 descN ++ pt 0x100023 ++ poke 0x100000 2 0x305 }
def markU : State := (marking.markPages { words := (List.range 8).map (fun i => BitVec.ofNat 64 (marking.hbmRead (0x1000 + 8 * i) 8)) } (numsFrom 0 288)).1
/-- A job of one block in progress, its source the first bytes of that page. -/
def smallJob : MarkJob := { words := [0x80000, 0x10001, 16, 0x200000, 0x300000, 9, 3 * 2 ^ 32, 5], pages := [(1, 0x100000)] }
def jobbing : State :=
  let s := { marking with mgmt := { boot := .ready, mkState := 1 } }
  { s with mgmt := { s.mgmt with mkJob := some { smallJob with old := s.markSource smallJob } } }

/-! ### Decoding: words written from the encodings of Tables 14-1 to 14-9 -/

/-- A word of every spindle instruction (Tables 14-2 to 14-4), each field at a value of its own. -/
theorem test_decode_spindle_a : ∀ p ∈ ([
    (0x012B001A, .addi 5 12 0 26), (0x022B001A, .andi 5 12 0 26), (0x032B001A, .ori 5 12 0 26), (0x042B001A, .xori 5 12 0 26),
    (0x052B001A, .shli 5 12 0 26), (0x062B001A, .shri 5 12 0 26), (0x072B001A, .srai 5 12 0 26), (0x082B001A, .cmpeqi 5 12 0 26),
    (0x092B001A, .cmplti 5 12 0 26), (0x0A28000C, .movi 5 12), (0x0B2B001A, .movhi 5 12 0 26), (0x0C2B06A1, .bfx 5 12 0 26 33),
    (0x0D2B06A1, .bfi 5 12 0 26 33), (0x0E2B001A, .fpack 5 12 0 26), (0x0F2B001A, .fpick 5 12 0 26), (0x102B2780, .add 5 12 19 1 1),
    (0x102B2781, .sub 5 12 19 1 1), (0x102B2782, .mul 5 12 19 1 1), (0x102B2783, .mulh 5 12 19 1 1), (0x102B2784, .mulhz 5 12 19 1 1),
    (0x102B2785, .div 5 12 19 1 1), (0x102B2786, .divz 5 12 19 1 1), (0x102B2787, .rem 5 12 19 1 1), (0x102B2788, .remz 5 12 19 1 1)] : List (Word32 × Instr)), decodeSpindle p.1 = .ok p.2 ∧ encodeSpindle p.2 = some p.1 := by decide +kernel
theorem test_decode_spindle_b : ∀ p ∈ ([
    (0x102B2789, .and 5 12 19 1 1), (0x102B278A, .or 5 12 19 1 1), (0x102B278B, .xor 5 12 19 1 1), (0x102B278C, .shl 5 12 19 1 1),
    (0x102B278D, .shr 5 12 19 1 1), (0x102B278E, .sra 5 12 19 1 1), (0x102B278F, .rotl 5 12 19 1 1), (0x102B2790, .min 5 12 19 1 1),
    (0x102B2791, .max 5 12 19 1 1), (0x102B2792, .minz 5 12 19 1 1), (0x102B2793, .maxz 5 12 19 1 1), (0x102B2794, .cmpeq 5 12 19 1 1),
    (0x102B2795, .cmplt 5 12 19 1 1), (0x102B2796, .cmpltz 5 12 19 1 1), (0x102B2797, .sel 5 12 19 1 1), (0x102B0018, .clz 5 12 0),
    (0x102B0019, .ctz 5 12 0), (0x102B001A, .popc 5 12 0), (0x112B2780, .fadd 5 12 19 1 1), (0x112B2781, .fsub 5 12 19 1 1),
    (0x112B2782, .fmul 5 12 19 1 1), (0x112B2783, .fmadd 5 12 19 1 1), (0x112B2784, .fdiv 5 12 19 1 1), (0x112B2785, .fmin 5 12 19 1 1)] : List (Word32 × Instr)), decodeSpindle p.1 = .ok p.2 ∧ encodeSpindle p.2 = some p.1 := by decide +kernel
theorem test_decode_spindle_c : ∀ p ∈ ([
    (0x112B2786, .fmax 5 12 19 1 1), (0x112B2787, .fcmp 5 12 19 1 1), (0x112B0008, .cvtfi 5 12 0), (0x112B0009, .cvtif 5 12 0),
    (0x112B270A, .cvtffN 5 12 19 1), (0x112B270B, .cvtffW 5 12 19 1), (0x122B2780, .padd 5 12 19 1 1), (0x122B2781, .pidx 5 12 19 1 1),
    (0x122B2782, .ptag 5 12 19 1 1), (0x122B0003, .pstrip 5 12 0), (0x1328000C, .movk 5 12), (0x1328010C, .movkd 5 12), (0x1828000C, .getk 5 12),
    (0x19016013, .setk 5 1 19), (0x1A000005, .trap 5), (0x1B000005, .brk 5), (0x202B0928, .ldB 5 12 0 2 1 40), (0x212B0928, .ldH 5 12 0 2 1 40),
    (0x222B0928, .ldW 5 12 0 2 1 40), (0x232B0928, .ldD 5 12 0 2 1 40), (0x242B0928, .ldzB 5 12 0 2 1 40), (0x252B0928, .ldzH 5 12 0 2 1 40),
    (0x262B0928, .ldzW 5 12 0 2 1 40), (0x282B0928, .stB 5 12 0 2 1 40)] : List (Word32 × Instr)), decodeSpindle p.1 = .ok p.2 ∧ encodeSpindle p.2 = some p.1 := by decide +kernel
theorem test_decode_spindle_d : ∀ p ∈ ([
    (0x292B0928, .stH 5 12 0 2 1 40), (0x2A2B0928, .stW 5 12 0 2 1 40), (0x2B2B0928, .stD 5 12 0 2 1 40), (0x2C2B0928, .ldt 5 12 0 2 1 40),
    (0x2D2B0928, .stt 5 12 0 2 1 40), (0x2E016013, .pf 5 1 19), (0x2F001400, .fence 5 0), (0x302B0928, .amoSwap 5 12 0 2 1 40),
    (0x312B0928, .amoAdd 5 12 0 2 1 40), (0x322B0928, .amoAnd 5 12 0 2 1 40), (0x332B0928, .amoOr 5 12 0 2 1 40), (0x342B0928, .amoXor 5 12 0 2 1 40),
    (0x352B0928, .amoMin 5 12 0 2 1 40), (0x362B0928, .amoMax 5 12 0 2 1 40), (0x372B0928, .amoMinz 5 12 0 2 1 40),
    (0x382B0928, .amoMaxz 5 12 0 2 1 40), (0x392B0928, .amoFadd 5 12 0 2 1 40), (0x3A2B0928, .amoAddBatch 5 12 0 2 1 40),
    (0x3B2B0928, .cas 5 12 0 2 1 40), (0x3C2B0A21, .notify 5 12 0 2 33), (0x3D2B0921, .nwait 5 12 0 2 33), (0x402B1021, .beq 5 12 0 1 33),
    (0x412B1021, .bne 5 12 0 1 33), (0x422B1021, .blt 5 12 0 1 33)] : List (Word32 × Instr)), decodeSpindle p.1 = .ok p.2 ∧ encodeSpindle p.2 = some p.1 := by decide +kernel
theorem test_decode_spindle_e : ∀ p ∈ ([
    (0x432B1021, .bge 5 12 0 1 33), (0x44282013, .bltz 5 1 19), (0x45282013, .bgez 5 1 19), (0x48000005, .b 5), (0x49000005, .bl 5),
    (0x4A014100, .jr 5 1), (0x4A2B0001, .jlr 5 12 0), (0x50280000, .purge 5), (0x50015881, .rfill 5 12 0 1), (0x50014102, .send 5 1),
    (0x50014103, .migrate 5 1), (0x502B0004, .mhome 5 12 0), (0x50014105, .setmig 5 1), (0x502B0006, .spawn 5 12 0), (0x50000007, .exit),
    (0x50000008, .yield), (0x502B0009, .dqpush 5 12 0), (0x5028000A, .dqpop 5), (0x5001588B, .launch 5 12 0 1), (0x512B2780, .topen 5 12 19 1 1),
    (0x512B2781, .tst 5 12 19 1 1), (0x512B2782, .tsr 5 12 19 1 1), (0x512B2783, .tsq 5 12 19 1 1), (0x512B0004, .seal 5 12 0)] : List (Word32 × Instr)), decodeSpindle p.1 = .ok p.2 ∧ encodeSpindle p.2 = some p.1 := by decide +kernel
theorem test_decode_spindle_f : ∀ p ∈ ([
    (0x51014105, .tret 5 1), (0x512B2786, .tinfo 5 12 19 1 1), (0x51015887, .qpost 5 12 0 1), (0x51014108, .qeos 5 1), (0x52014100, .cpush 5 1),
    (0x522B0001, .cstat 5 12 0), (0x52014102, .pbinv 5 1), (0x522B0003, .barArrive 5 12 0), (0x52015884, .barWait 5 12 0 1),
    (0x522B2785, .barRed 5 12 19 1 1), (0x532B0000, .hnew 5 12 0), (0x53014101, .hset 5 1), (0x53014102, .hconf 5 1), (0x53014103, .href 5 1),
    (0x532B2784, .gwalk 5 12 19 1 1), (0x532B0005, .hashb 5 12 0), (0x532B0006, .pfxl 5 12 0), (0x532B0007, .pin 5 12 0), (0x532B0008, .unpin 5 12 0),
    (0x54000000, .nop), (0x54000001, .eret), (0x54014102, .ckpt 5 1), (0x54014103, .lresume 5 1), (0x54015884, .vjoin 5 12 0 1)] : List (Word32 × Instr)), decodeSpindle p.1 = .ok p.2 ∧ encodeSpindle p.2 = some p.1 := by decide +kernel
/-- A word of every operation of the S (Table 14-6) slot. -/
theorem test_decode_slot_s : ∀ p ∈ ([
    (0x00000000, .snop), (0x04E48000, .sadd 3 9 0 32768), (0x08E60002, .ssub 3 9 1 2), (0x0CE4C000, .smul 3 9 0 49152), (0x10E60004, .sand 3 9 1 4),
    (0x14E50000, .sor 3 9 0 65536), (0x18E60006, .sxor 3 9 1 6), (0x1CE54000, .sshl 3 9 0 81920), (0x20E60008, .sshr 3 9 1 8),
    (0x2514D400, .scmp 4 5 6 5), (0x287FFFFB, .smovi 1 0x3FFFFB), (0x2FC000C3, .smovk 15 0xC3), (0x321CFFF0, .sb 2 7 0xFFF0),
    (0x36008001, .loop 1 0 0x8001), (0x3AA40000, .qwait 5 9), (0x3E600000, .qpostLathe 2 6), (0x43000000, .qeosLathe 3), (0x47000000, .tretLathe 6),
    (0x4A40002A, .getkLathe 9 0x2A), (0x4C24002A, .setkLathe 9 0x2A), (0x50000ABC, .trapsw 0xABC)] : List (Word32 × Instr)), decodeSlot .s p.1 = .ok p.2 ∧ encodeSlot p.2 = some p.1 := by decide +kernel
/-- A word of every operation of the V (Tables 14-7, 14-8) slot. -/
theorem test_decode_slot_v : ∀ p ∈ ([
    (0x00000000, .vnop), (0x0621A100, .vadd 17 1 20 1), (0x0A22A200, .vsub 17 2 20 2), (0x0E23A300, .vmul 17 3 20 3), (0x1224A400, .vfma 17 4 20 4),
    (0x1625A500, .vmax 17 5 20 5), (0x1A26A600, .vmin 17 6 20 6), (0x1E27A400, .vand 17 7 20 4), (0x2228A000, .vor 17 8 20 0),
    (0x2629A100, .vxor 17 9 20 1), (0x2A2AA300, .vshl 17 10 20 3), (0x2E2BA400, .vshr 17 11 20 4), (0x325502A0, .vcvt 18 21 2 5),
    (0x364B0600, .vbcast 18 11 6), (0x39720402, .vred 11 18 4 2), (0x3FC11600, .vsel 30 1 2 6), (0x43C11405, .vcmp 30 1 2 4 5),
    (0x47C11300, .vmac16 30 1 2 3), (0x4BD80229, .vrow 30 6 2 0 41), (0x4F1E00C0, .vwacc 6 30 0 3 0)] : List (Word32 × Instr)), decodeSlot .v p.1 = .ok p.2 ∧ encodeSlot p.2 = some p.1 := by decide +kernel
/-- A word of every operation of the F (Table 14-9) slot. -/
theorem test_decode_slot_f : ∀ p ∈ ([
    (0x00000000, .fnop), (0x07210000, .fexp2 25 1), (0x0B220000, .flog2 25 2), (0x0F230000, .frcp 25 3), (0x13240000, .frsqrt 25 4),
    (0x17250000, .fsin 25 5), (0x1B260000, .fcos 25 6), (0x233DA000, .smx 6 3 13 5), (0x27300000, .smxm 6 3), (0x2B000000, .smxf 6),
    (0x2F000000, .smxz 6)] : List (Word32 × Instr)), decodeSlot .f p.1 = .ok p.2 ∧ encodeSlot p.2 = some p.1 := by decide +kernel
/-- A word of every operation of the M (Table 14-9) slot. -/
theorem test_decode_slot_m : ∀ p ∈ ([
    (0x00000000, .mnop), (0x07576400, .mma 6 5 3 1 0 1 9), (0x08A8B800, .mmat 1 2 4 0 1 0 14), (0x0F260000, .xchg 25 6)] : List (Word32 × Instr)), decodeSlot .m p.1 = .ok p.2 ∧ encodeSlot p.2 = some p.1 := by decide +kernel
/-- A word of every operation of the E (Table 14-9) slot. -/
theorem test_decode_slot_e : ∀ p ∈ ([
    (0x00000000, .enop), (0x0400009C, .escl 0x9C)] : List (Word32 × Instr)), decodeSlot .e p.1 = .ok p.2 ∧ encodeSlot p.2 = some p.1 := by decide +kernel
/-- A word of every operation of the T (Table 14-9) slot. -/
theorem test_decode_slot_t : ∀ p ∈ ([
    (0x00000000, .tnop), (0x073A9CC0, .tld 25 6 0x53 19), (0x0B3A9CC1, .tstLathe 25 6 0x53 19 1), (0x0E580002, .tmask 9 6 2),
    (0x10199600, .tout 25 9 6), (0x10199601, .toutC 25 9 6), (0x14180000, .tseal 6)] : List (Word32 × Instr)), decodeSlot .t p.1 = .ok p.2 ∧ encodeSlot p.2 = some p.1 := by decide +kernel

/-! ### Ill-formed terms, which the checks refuse (R201, R202, R203, R210, Tables 14-2 to 14-9) -/

/-- Spindle instructions: an immediate shift above 63; a field past bit 63; a narrow format outside 9 to 13; an odd `movkd`; a system
register or trap code above its range; orders and scopes that an access does not take; odd or overlapping pairs; registers below g7;
a register that is no multiple of 4. -/
theorem test_wellFormed_refuses_spindle_a : ∀ i ∈ ([
    .shli 2 2 0 67, .shri 2 2 0 64, .srai 2 2 0 64, .bfx 1 2 0 63 1, .bfi 1 2 0 7 60, .cvtffN 1 2 8 0, .cvtffW 1 2 14 0, .movkd 10 253,
    .getk 1 64, .setk 1 0 64, .trap 4096, .ldB 1 2 0 6 1 0, .ldH 1 2 0 1 0 0, .ldW 1 2 0 2 2 0, .ldD 1 5 0 2 2 2, .ldzB 1 2 0 0 3 0,
    .ldzH 1 2 0 7 1 0, .ldzW 1 2 0 0 2 0, .stB 1 2 0 6 2 0] : List Instr), wellFormed i = false := by decide +kernel
theorem test_wellFormed_refuses_spindle_b : ∀ i ∈ ([
    .stH 1 2 0 0 1 0, .stW 1 2 0 1 0 0, .stD 1 2 0 0 3 0, .ldt 1 2 0 0 2 0,
    .stt 1 2 0 0 1 0, .fence 6 1, .fence 0 0, .amoSwap 1 2 0 7 3 0, .amoAdd 1 2 0 1 0 0, .amoAnd 1 2 0 6 1 0, .amoOr 1 2 0 6 1 0,
    .amoXor 1 2 0 6 1 0, .amoMin 1 2 0 6 1 0, .amoMax 1 2 0 6 1 0, .amoMinz 1 2 0 6 1 0, .amoMaxz 1 2 0 6 1 0, .amoFadd 1 2 0 6 1 0,
    .amoAddBatch 1 2 0 6 1 0] : List Instr), wellFormed i = false := by decide +kernel
theorem test_wellFormed_refuses_spindle_c : ∀ i ∈ ([
    .cas 9 2 0 3 1 2, .cas 8 8 0 3 1 0, .cas 8 9 0 3 1 0, .cas 8 2 0 6 1 0, .notify 1 2 0 6 0, .nwait 1 2 0 7 0,
    .dqpush 6 8 0, .dqpush 8 6 0, .dqpop 6, .cpush 18 0] : List Instr), wellFormed i = false := by decide +kernel

/-- Slot operations: register operands with other bits set; shifts above 31; conditions, types and reductions that the tables mark
illegal; pairs that are odd or overlap; accumulators that are the same. -/
theorem test_wellFormed_refuses_slot_a : ∀ i ∈ ([
    .sadd 1 2 0 1, .ssub 1 2 0 1, .smul 1 2 0 1, .sand 1 2 0 1, .sor 1 2 0 1, .sxor 1 2 0 1, .sshl 1 2 0 1, .sshl 1 2 1 32, .sshr 1 2 0 1,
    .sshr 1 2 1 0x1FFFF, .scmp 1 2 3 6, .sb 3 0 0, .sb 0 1 0, .loop 0 1 1, .loop 1 1 1] : List Instr), wellFormed i = false ∧ slotValueLegal i = false := by decide +kernel
theorem test_wellFormed_refuses_slot_b : ∀ i ∈ ([
    .vadd 1 2 3 7, .vsub 1 2 3 7, .vmul 1 2 3 7,
    .vfma 1 2 3 7, .vmax 1 2 3 7, .vmin 1 2 3 7, .vand 1 2 3 2, .vor 1 2 3 5, .vxor 1 2 3 6, .vshl 1 2 3 7, .vshr 1 2 3 2] : List Instr), wellFormed i = false ∧ slotValueLegal i = false := by decide +kernel
theorem test_wellFormed_refuses_slot_c : ∀ i ∈ ([
    .vcvt 2 3 7 0, .vcvt 2 3 0 7, .vcvt 2 3 2 2, .vcvt 3 4 2 5, .vcvt 2 3 2 5, .vcvt 4 3 5 2, .vcvt 3 2 5 2, .vbcast 1 2 7, .vred 1 2 7 0,
    .vred 1 2 0 3, .vsel 1 2 3 7, .vcmp 1 2 3 7 0, .vcmp 1 2 3 0 6, .vcmp 1 2 3 2 4, .vmac16 1 2 3 0, .vrow 1 2 1 0 0, .vrow 1 2 2 1 5,
    .vwacc 1 2 5 0 0, .vwacc 1 2 0 3 1, .smx 1 1 2 3, .smxm 2 2] : List Instr), wellFormed i = false ∧ slotValueLegal i = false := by decide +kernel

/-! ### The spec's worked examples and tables -/

/-- The encodings worked out in chapters 14, 15 and 16. -/
theorem test_worked_encodings_a : ∀ p ∈ ([
    (0x10088600, .add 1 2 3 0 0), (0x10088680, .add 1 2 3 0 1), (0x23094902, .ldD 1 5 0 2 1 2), (0x40200FFD, .beq 4 0 0 0 0xFFD),
    (0x134800FA, .movk 9 250), (0x54000000, .nop), (0x0118DFFF, .addi 3 3 0 0x1FFF), (0x0C2082CC, .bfx 4 2 0 11 12),
    (0x135001FC, .movkd 10 252), (0x1129980A, .cvtffN 5 6 12 0), (0x44180FFC, .bltz 3 0 0xFFC), (0x49000040, .bl 64),
    (0x4A01C000, .jr 7 0), (0x05108003, .shli 2 2 0 3)] : List (Word32 × Instr)),
    decodeSpindle p.1 = .ok p.2 ∧ wellFormed p.2 = true := by decide +kernel
theorem test_worked_encodings_b : ∀ p ∈ ([
    (0x2B20D201, .stD 4 3 0 4 2 1), (0x220880FF, .ldW 1 2 0 0 0 0xFF),
    (0x3120D300, .amoAdd 4 3 0 4 3 0), (0x3B408D02, .cas 8 2 0 3 1 2), (0x3D315100, .nwait 6 5 0 4 0), (0x2F000B00, .fence 2 3),
    (0x51609200, .topen 12 2 9 0 0), (0x51231602, .tsr 4 12 11 0 0), (0x516B0004, .seal 13 12 0), (0x52040000, .cpush 16 0),
    (0x53014002, .hconf 5 0), (0x18180000, .getk 3 0), (0x50000007, .exit)] : List (Word32 × Instr)),
    decodeSpindle p.1 = .ok p.2 ∧ wellFormed p.2 = true := by decide +kernel

/-- Words that the same chapters say trap ILLEGAL. -/
theorem test_worked_illegal : ∀ p ∈ ([
    (0x23094A02, .ldD 1 5 0 2 2 2), (0x05108043, .shli 2 2 0 67), (0x135001FD, .movkd 10 253), (0x3B488D02, .cas 9 2 0 3 1 2)] :
    List (Word32 × Instr)), decodeSpindle p.1 = .ok p.2 ∧ wellFormed p.2 = false := by decide +kernel

/-- Chapter 14: a bundle of `smovi q1, #5` and `tld v4, h1, #3, #0`, with an issue delay of 2. -/
theorem test_worked_bundle : decodeBundle 0x1000 true [0x41200000, 0x28400005, 0x04841800] =
    .ok { addr := 0x1000, size := 12, dly := 2, lend := false, gang := false, ops := [(0, .smovi 1 5), (6, .tld 4 1 3 0)] } := by decide +kernel

/-- The state after an outcome. -/
def after (o : Out) : State :=
  match o with
  | .next t => t
  | _ => State.reset
/-- The value of a register of the thread afterwards. -/
def got (i : Instr) (r : Nat) (s : State) : Word64 := (((after (exec i s)).slot 0).reg r).v

/-- Chapter 15: field-layout entry 5 takes a link header apart and puts it together again. -/
def headerState : State :=
  { regs [(8, full 0x04094B001F2A5000), (9, full 0x02A5012C00090001)] with cores := [(0, { flt := [(5, { tag := some 0, v := 0x8CB0A690B090BA50 })] })] }
theorem test_fpick : got (.fpick 9 8 0 5) 9 headerState = 0x02A5012C00090001 := by decide +kernel
theorem test_fpack : got (.fpack 10 9 0 5) 10 headerState = 0x04094B00002A5000 := by decide +kernel

/-- Tables 15-2 to 15-6: limits of divisions, shifts and pointers. -/
theorem test_rem_sign : (((after (exec (.rem 3 1 2 0 0) (regs [(1, full (2 ^ 64 - 7)), (2, full 2)]))).slot 0).fills.map (·.v)) = [-1] := by
  decide +kernel
theorem test_movhi : got (.movhi 9 9 0 0x0AAA) 9 (regs [(9, full 0x555)]) = 0xAAAAAA := by decide +kernel
theorem test_sra_count : got (.sra 3 1 2 0 0) 3 (regs [(1, full (2 ^ 63)), (2, full 67)]) = 0xF000000000000000 := by decide +kernel
theorem test_mulh_negative : got (.mulh 3 1 2 0 0) 3 (regs [(1, full (2 ^ 64 - 1)), (2, full 2)]) = 0xFFFFFFFFFFFFFFFF := by decide +kernel
theorem test_pidx : got (.pidx 1 2 3 0 0) 1 (regs [(2, full 0x48FF000000001000), (3, full (2 ^ 64 - 3))]) = 0x48FF000000000FF4 := by decide +kernel
theorem test_pidx_format :
    ((after (exec (.pidx 1 2 3 0 0) (regs [(2, full 0x7800000000000000), (3, full 1)]))).slot 0).pc = 0x2000 ∨
    ((after (exec (.pidx 1 2 3 0 0) (regs [(2, full 0x7800000000000000), (3, full 1)]))).slot 0).st = .free := by decide +kernel

/-- Chapter 2: the entries of the exp2 table, exp2t(−1), and the merge and finalisation of two softmax states. -/
theorem test_exp2 : exp2t 0 = 0x3F800000 ∧ exp2t 0xBF800000 = 0x3F000000 ∧ exp2t 0xBF000000 = 0x3F3504F3 := by decide +kernel
theorem test_softmax_merge :
    softmaxMerge { m := 0x40000000, l := 0x3F800000, o := [0x40800000] } { m := 0x40400000, l := 0x40000000, o := [0x40C00000] } =
      { m := 0x40400000, l := 0x40200000, o := [0x41000000] } ∧
    softmaxFinal { m := 0x40400000, l := 0x40200000, o := [0x41000000] } = { m := 0x40400000, l := 0x40200000, o := [0x404CCCCD] } := by
  decide +kernel
/-- Chapter 2: a block of WF8. -/
theorem test_wf8_block : wf8Block ([0x0B, 0x70, 0x03, 0x20, 0xF8, 0x60] ++ List.replicate 7 0) 16 =
    some ([0x38, 0xBC, 0x40, 0x7E] ++ List.replicate 12 0x38, 14) := by decide +kernel

/-- Chapter 5: a work identifier; chapter 7: the split of a range. -/
theorem test_work_identifier : LaunchRec.workId { exts := [40, 16, 3], widths := [6, 4, 2] } ((5 * 16 + 9) * 3 + 2) = 0x166 := by decide +kernel
theorem test_split_point : splitPoint [40, 16, 3] 152 28 = 165 := by decide +kernel

/-- Chapter 10: the three best of five contributions, with ties, infinities and a NaN. -/
def five : List (Nat × Nat × Word64) :=
  [(0, 0, 0x4000000000000007), (1, 1, 0x7F80000000000009), (2, 2, 0x4000000000000003), (3, 3, 0x7FC0000000000001), (4, 4, 0x7F7FFFFF00000004)]
theorem test_top_three : five.map (barResult 7 2 five) = [BitVec.allOnes 64, 1, 2, BitVec.allOnes 64, 0] ∧ barFlags 7 five = true := by
  decide +kernel

/-- Chapter 9 and 16: the handle of tile 5 of cluster 3, of generation 0. -/
theorem test_handle : handleOf 3 5 0 = 0x03014000 := by decide +kernel

/-- Table 17-4: with a write to v3 pending until cycle 104, at cycle 103 a read of v3 and a second write of it are hazards, and a write of
v1 is none; and a `loop` with its count in q3 reads q3. -/
def at103 : State :=
  { lat { pending := [(.v 3, 104), (.q 3, 104)], v := [(4, vec 1), (7, vec 3)] } with cycle := 103 }
theorem test_hazard_read : ((after (exec (.vmul 5 4 3 2) at103)).lathe 1).trap.isSome = true := by decide +kernel
theorem test_hazard_write : ((after (exec (.fexp2 3 6) at103)).lathe 1).trap.isSome = true := by decide +kernel
theorem test_no_hazard : ((after (exec (.vadd 1 7 7 2) at103)).lathe 1).trap.isSome = false := by decide +kernel
theorem test_hazard_loop : ((after (exec (.loop 0 3 0) at103)).lathe 1).trap.isSome = true := by decide +kernel
theorem test_loop_immediate : ((after (exec (.loop 1 0 5) at103)).lathe 1).trap.isSome = false := by decide +kernel
theorem test_vfma_lands : ((after (exec (.vfma 3 1 2 2) latV)).lathe 1).pending = [(.v 3, 104)] := by decide +kernel

/-! ### States and operands that meet the hypotheses of the statements -/

theorem noneAll {o : Option (Nat × Nat)} {P : Nat → Nat → Prop} (h : o = none) : ∀ c n, o = some (c, n) → P c n := by
  simp [h]

/-- Where no queue of a machine has a post waiting, no Lathe has one. -/
theorem noPost {s : State} {p : PendingPost} (h : s.lathes.all (fun e => e.2.hqWait.isEmpty) = true) : ∀ d, p ∉ (s.lathe d).hqWait := by
  intro d
  have h0 : (s.lathe d).hqWait = [] :=
    Map.get_of_all (P := fun l : Lathe => l.hqWait = []) rfl (fun e he => List.isEmpty_iff.mp (List.all_eq_true.mp h e he)) d
  simp [h0]

/-- Where one slice alone has waiter entries and is their words' home, every entry stands at its word's home slice. -/
theorem oneSlice {s : State} {k : Nat} {x : Slice} (h : s.slices = [(k, x)]) (he : ∀ e ∈ x.waiters, homeSlice e.pa = k) : WaitersHomed s := by
  intro n e hm
  have key : s.slice n = if n = k then x else {} := by
    unfold State.slice Map.get
    rw [h]
    simp only [Map.find?]
    by_cases hn : n = k
    · simp [hn]
    · simp [hn, Ne.symm hn]
  rw [key] at hm
  split at hm
  · subst n; exact he e hm
  · cases hm

def w1 : State := regs [(1, full 7), (2, full (2^64-3))]
theorem wit_IntegerResults :
    (∀ p ∈ integerOps, Ready w1 (p.1 3#5 1#5 2#5 0#1 0#1) [1#5, 2#5] [3#5]) := by
  unfold Ready
  decide +kernel

def w2 : State := regs [(1, full (2^64-7))]
def w3 : State := regs [(1, full 8), (2, full 9), (3, full 0)]
def w4 : State := regs [(1, full 0x15), (3, full 9)]
def w5 : State := regs [(1, full (2^63+5)), (3, full (2^64-1))]
theorem wit_ImmediateAndBitResults :
    (∀ p ∈ immediateOps, Ready w2 (p.1 3#5 1#5 0#1 5#13) [1#5] [3#5]) ∧
    (∀ p ∈ immediateOps, Ready w2 (p.1 1#5 1#5 0#1 63#13) [1#5] [1#5]) ∧
    (((regs []).cur.reg (3#5).toNat).st ≠ RegState.pending) ∧
    (63 < (64#13).toNat ∧ Handles (regs [])) ∧
    (Ready (regs [(1, full 0)]) (Instr.clz 3#5 1#5 0#1) [1#5] [3#5]) ∧
    (Ready (regs [(1, full 8)]) (Instr.ctz 3#5 1#5 0#1) [1#5] [3#5]) ∧
    (Ready (regs [(1, full 3855)]) (Instr.popc 3#5 1#5 0#1) [1#5] [3#5]) ∧
    (Ready w3 (Instr.sel 3#5 1#5 2#5 0#1 0#1) [1#5, 2#5, 3#5] [3#5]) ∧
    (Ready (regs [(1, full 123)]) (Instr.bfx 3#5 1#5 0#1 2#6 4#6) [1#5] [3#5]) ∧
    (Ready w4 (Instr.bfi 3#5 1#5 0#1 4#6 0#6) [1#5, 3#5] [3#5]) ∧
    (Ready w5 (Instr.bfi 3#5 1#5 0#1 3#6 8#6) [1#5, 3#5] [3#5]) := by
  constructorm* _ ∧ _ <;> first
    | decide +kernel
    | (unfold Handles; decide +kernel)
    | (unfold Ready; decide +kernel)

def w6 : State := regs [(1, full (2^64-7)), (2, full 2)]
def w7 : State := regs [(1, full (2^64-7)), (2, full 0)]
def w8 : State := regs [(1, full (2^63)), (2, full (2^64-1))]
theorem wit_DivisionResults :
    ((w6.cur.reg (1#5).toNat).st = RegState.full ∧ (w6.cur.reg (2#5).toNat).st = RegState.full ∧ (w6.cur.reg (3#5).toNat).st ≠ RegState.pending) ∧
    ((w7.cur.reg (1#5).toNat).st = RegState.full ∧ (w7.cur.reg (2#5).toNat).st = RegState.full ∧ (w7.cur.reg (3#5).toNat).st ≠ RegState.pending) ∧
    ((w8.cur.reg (1#5).toNat).st = RegState.full ∧ (w8.cur.reg (2#5).toNat).st = RegState.full ∧ (w8.cur.reg (3#5).toNat).st ≠ RegState.pending) := by
  exact ⟨by decide +kernel, by decide +kernel, by decide +kernel⟩

def w9 : State := regs [(1, full 0x3FF8000000000000), (2, full 0xC000000000000000)]
def w10 : State := regs [(1, full 0x7FF8000000000000), (2, full 0xC000000000000000)]
def w11 : State := regs [(1, full 0x3FF8000000000000), (2, full 0xC000000000000000), (3, full 0x4000000000000000)]
def w12 : State := regs [(1, full 0xC3F8000000000000)]
def w13 : State := regs [(1, full (2^64-5))]
def w14 : State := regs [(1, full 0x3FF8000000000000)]
def w15 : State := regs [(1, full 0x3FF8000000003C00)]
def w16 : State := regs [(1, full (11 * 2^59 + 0x1000)), (2, full 3)]
def w17 : State := regs [(1, full (31 * 2^59 + 0x1000)), (2, full 3)]
theorem wit_FloatAndPointerResults :
    (∀ p ∈ otherOps2, Ready w9 (p.1 3#5 1#5 2#5 0#1 0#1) [1#5, 2#5] [3#5]) ∧
    (∀ p ∈ otherOps2, Ready w10 (p.1 3#5 1#5 2#5 0#1 0#1) [1#5, 2#5] [3#5]) ∧
    (Ready w11 (Instr.fmadd 3#5 1#5 2#5 0#1 0#1) [1#5, 2#5, 3#5] [3#5]) ∧
    (Ready w9 (Instr.fdiv 3#5 1#5 2#5 0#1 0#1) [1#5, 2#5] [3#5]) ∧
    (Ready w12 (Instr.cvtfi 3#5 1#5 0#1) [1#5] [3#5]) ∧
    ((Ready w13 (Instr.cvtif 3#5 1#5 0#1) [1#5] [3#5])) ∧
    (Ready w14 (Instr.cvtffN 3#5 1#5 10#5 0#1) [1#5] [3#5]) ∧
    (Ready w15 (Instr.cvtffW 3#5 1#5 11#5 0#1) [1#5] [3#5]) ∧
    (Ready w15 (Instr.pstrip 3#5 1#5 0#1) [1#5] [3#5]) ∧
    (Ready w16 (Instr.pidx 3#5 1#5 2#5 0#1 0#1) [1#5, 2#5] [3#5] ∧ formatBad (w16.gr 1#5) false = false) ∧
    (Ready w17 (Instr.pidx 3#5 1#5 2#5 0#1 0#1) [1#5, 2#5] [3#5] ∧ formatBad (w17.gr 1#5) false = true ∧ Handles w17) := by
  constructorm* _ ∧ _ <;> first
    | decide +kernel
    | (unfold Handles; decide +kernel)
    | (unfold Ready; decide +kernel)

def w18 : State := { one { launch := some 64 } with cores := [(0, { winOwner := some 64 })] }
def w19 : State := one { launch := some 64 }
def w20 : State := { one { launch := some 64 } with cores := [(0, { winOwner := some 128 })] }
def w21 : State := one {}
def w22 : State := { regs [(1, full 0x123456789)] with cores := [(0, { flt := [(4, { tag := some 0, v := 0x88700000C4308030 })] })] }
def w23 : FltEntry := { tag := some 0, v := 0x88700000C4308030 }
def w24 : State := { regs [(1, full 0x123456789)] with cores := [(0, { flt := [(4, { tag := some 0, v := 0x88700000C4308031 })] })] }
def w25 : FltEntry := { tag := some 0, v := 0x88700000C4308031 }
def w26 : State := { regs [(1, full 0x123456789)] with cores := [(0, { flt := [(4, { tag := some 0, v := 0xBFF0000000000000 })] })] }
def w27 : FltEntry := { tag := some 0, v := 0xBFF0000000000000 }
def w28 : State := regs [(1, full 0x123456789)]
def w29 : FltEntry := {}
theorem wit_WindowAndFieldLayout :
    ((w18.cur.reg (3#5).toNat).st ≠ RegState.pending ∧ w18.cur.launch.isSome = true ∧ (w18.core w18.coreNo).winOwner = w18.cur.launch) ∧
    ((w18.cur.reg (3#5).toNat).st ≠ RegState.pending ∧ w18.cur.launch.isSome = true ∧ (w18.core w18.coreNo).winOwner = w18.cur.launch ∧ (254#8).toNat % 2 = 0) ∧
    ((w18.cur.reg (3#5).toNat).st ≠ RegState.pending ∧ w18.cur.launch.isSome = true ∧ (w18.core w18.coreNo).winOwner = w18.cur.launch ∧ (255#8).toNat % 2 = 1 ∧ Handles w18) ∧
    ((w19.cur.reg (3#5).toNat).st ≠ RegState.pending ∧ ((w19.core w19.coreNo).winOwner = none ∨ (w19.core w19.coreNo).winOwner ≠ w19.cur.launch) ∧ Handles w19) ∧
    ((w20.cur.reg (3#5).toNat).st ≠ RegState.pending ∧ ((w20.core w20.coreNo).winOwner = none ∨ (w20.core w20.coreNo).winOwner ≠ w20.cur.launch) ∧ Handles w20) ∧
    ((w20.cur.reg (3#5).toNat).st ≠ RegState.pending ∧ ((w20.core w20.coreNo).winOwner = none ∨ (w20.core w20.coreNo).winOwner ≠ w20.cur.launch) ∧ Handles w20 ∧ (254#8).toNat % 2 = 0) ∧
    ((w21.cur.reg (3#5).toNat).st ≠ RegState.pending ∧ ((w21.core w21.coreNo).winOwner = none ∨ (w21.core w21.coreNo).winOwner ≠ w21.cur.launch) ∧ Handles w21 ∧ (254#8).toNat % 2 = 0) ∧
    ((w22.core w22.coreNo).flt.get (4#5).toNat { } = w23 ∧ (w22.cur.reg (1#5).toNat).st = RegState.full ∧ (w22.cur.reg (3#5).toNat).st ≠ RegState.pending ∧ w23.tag = some w22.cur.ctx ∧ (∀ k < 4, descBad (descOf (BitVec.toNat w23.v) k) = false)) ∧
    ((w24.core w24.coreNo).flt.get (4#5).toNat { } = w25 ∧ (w24.cur.reg (1#5).toNat).st = RegState.full ∧ (w24.cur.reg (3#5).toNat).st ≠ RegState.pending ∧ w25.tag = some w24.cur.ctx ∧ (∃ k < 4, descBad (descOf (BitVec.toNat w25.v) k) = true) ∧ Handles w24) ∧
    ((w26.core w26.coreNo).flt.get (4#5).toNat { } = w27 ∧ (w26.cur.reg (1#5).toNat).st = RegState.full ∧ (w26.cur.reg (3#5).toNat).st ≠ RegState.pending ∧ w27.tag = some w26.cur.ctx ∧ (∃ k < 4, descBad (descOf (BitVec.toNat w27.v) k) = true) ∧ Handles w26) ∧
    ((w28.core w28.coreNo).flt.get (4#5).toNat { } = w29 ∧ (w28.cur.reg (1#5).toNat).st = RegState.full ∧ (w28.cur.reg (3#5).toNat).st ≠ RegState.pending ∧ w29.tag ≠ some w28.cur.ctx ∧ Handles w28) := by
  constructorm* _ ∧ _ <;> first
    | decide +kernel
    | (and_intros <;> first | decide +kernel)
    | (unfold Handles; decide +kernel)

def w30 : State := regs [(1, full 7), (2, full 7)]
def w31 : State := regs [(1, full (2^64-7)), (2, full 7)]
def w32 : State := regs [(1, full 0xFF00000000001000)]
theorem wit_Branches :
    (∀ p ∈ ([(Instr.beq, fun a b => a = b), (Instr.bne, fun a b => a ≠ b), (Instr.blt, fun a b => BitVec.toInt a < BitVec.toInt b), (Instr.bge, fun a b => BitVec.toInt b ≤ BitVec.toInt a)] : List ((BitVec 5 → BitVec 5 → BitVec 1 → BitVec 1 → BitVec 12 → Instr) × (Word64 → Word64 → Prop))), Ready w30 (p.1 1#5 2#5 0#1 0#1 4095#12) [1#5, 2#5] []) ∧
    (∀ p ∈ ([(Instr.beq, fun a b => a = b), (Instr.bne, fun a b => a ≠ b), (Instr.blt, fun a b => BitVec.toInt a < BitVec.toInt b), (Instr.bge, fun a b => BitVec.toInt b ≤ BitVec.toInt a)] : List ((BitVec 5 → BitVec 5 → BitVec 1 → BitVec 1 → BitVec 12 → Instr) × (Word64 → Word64 → Prop))), Ready w31 (p.1 1#5 2#5 0#1 0#1 4#12) [1#5, 2#5] []) ∧
    (∀ p ∈ ([(Instr.bltz, fun a => BitVec.toInt a < 0), (Instr.bgez, fun a => 0 ≤ BitVec.toInt a)] : List ((BitVec 5 → BitVec 1 → BitVec 12 → Instr) × (Word64 → Prop))), Ready w31 (p.1 1#5 0#1 4#12) [1#5] []) ∧
    (((regs []).cur.reg 7).st ≠ RegState.pending) ∧
    (Ready w32 (Instr.jr 1#5 0#1) [1#5] [] ∧ BitVec.toNat (w32.gr 1#5) % 4 = 0) ∧
    (Ready (regs [(1, full 4098)]) (Instr.jr 1#5 0#1) [1#5] [] ∧ BitVec.toNat ((regs [(1, full 4098)]).gr 1#5) % 4 ≠ 0 ∧ Handles (regs [(1, full 4098)])) ∧
    (Ready (regs [(1, full 4100)]) (Instr.jlr 7#5 1#5 0#1) [1#5] [7#5] ∧ BitVec.toNat ((regs [(1, full 4100)]).gr 1#5) % 4 = 0) ∧
    (Ready (regs [(1, full 4097)]) (Instr.jlr 7#5 1#5 0#1) [1#5] [7#5] ∧ BitVec.toNat ((regs [(1, full 4097)]).gr 1#5) % 4 ≠ 0 ∧ Handles (regs [(1, full 4097)])) := by
  constructorm* _ ∧ _ <;> first
    | decide +kernel
    | (unfold Handles; decide +kernel)
    | (unfold Ready; decide +kernel)

def w33 : State := regs [(1, { st := .pending }), (2, full 1), (3, { st := .pending })]
def w34 : State := regs [(1, {}), (2, { st := .pending })]
def w35 : State := regs [(2, { st := .pending }), (3, { st := .pending })]
def w36 : State := { one {} with slots := [(0, { st := .active, pc := 0xFE000000000000 })] }
theorem wit_UnreadyOperands :
    ((1#1 = 1#1 ∧ ((regs [(2, full 1)]).cur.reg (1#5).toNat).st = RegState.empty ∨ 0#1 = 1#1 ∧ ((regs [(2, full 1)]).cur.reg (2#5).toNat).st = RegState.empty) ∧ Handles (regs [(2, full 1)]) ∧ (∀ p ∈ (integerOps ++ otherOps2 : List (Op2 × Val2)), wellFormed (p.1 3#5 1#5 2#5 1#1 0#1) = true)) ∧
    ((¬(0#1 = 1#1 ∧ (w33.cur.reg (1#5).toNat).st = RegState.empty ∨ 0#1 = 1#1 ∧ (w33.cur.reg (2#5).toNat).st = RegState.empty)) ∧ ((w33.cur.reg (1#5).toNat).st ≠ RegState.full ∨ (w33.cur.reg (2#5).toNat).st ≠ RegState.full ∨ (w33.cur.reg (3#5).toNat).st = RegState.pending) ∧ (∀ p ∈ (integerOps ++ otherOps2 : List (Op2 × Val2)), wellFormed (p.1 3#5 1#5 2#5 0#1 0#1) = true)) ∧
    ((¬(1#1 = 1#1 ∧ (w33.cur.reg (1#5).toNat).st = RegState.empty ∨ 1#1 = 1#1 ∧ (w33.cur.reg (2#5).toNat).st = RegState.empty)) ∧ ((w33.cur.reg (1#5).toNat).st ≠ RegState.full ∨ (w33.cur.reg (2#5).toNat).st ≠ RegState.full ∨ (w33.cur.reg (3#5).toNat).st = RegState.pending) ∧ (∀ p ∈ (integerOps ++ otherOps2 : List (Op2 × Val2)), wellFormed (p.1 3#5 1#5 2#5 1#1 1#1) = true)) ∧
    ((¬(0#1 = 1#1 ∧ (w34.cur.reg (1#5).toNat).st = RegState.empty ∨ 1#1 = 1#1 ∧ (w34.cur.reg (2#5).toNat).st = RegState.empty)) ∧ ((w34.cur.reg (1#5).toNat).st ≠ RegState.full ∨ (w34.cur.reg (2#5).toNat).st ≠ RegState.full ∨ (w34.cur.reg (3#5).toNat).st = RegState.pending) ∧ (∀ p ∈ (integerOps ++ otherOps2 : List (Op2 × Val2)), wellFormed (p.1 3#5 1#5 2#5 0#1 1#1) = true)) ∧
    ((1#1 = 1#1 ∧ (w35.cur.reg (1#5).toNat).st = RegState.empty ∨ 0#1 = 1#1 ∧ (w35.cur.reg (2#5).toNat).st = RegState.empty) ∧ Handles w35 ∧ (∀ p ∈ (integerOps ++ otherOps2 : List (Op2 × Val2)), wellFormed (p.1 3#5 1#5 2#5 1#1 0#1) = true)) ∧
    (kindOf (Instr.bfx 3 1 0 63 1) = none ∧ wellFormed (Instr.bfx 3 1 0 63 1) = false ∧ Handles (regs [])) ∧
    (kindOf (Instr.trap 4096) = none ∧ wellFormed (Instr.trap 4096) = false ∧ Handles (regs [])) ∧
    (kindOf (Instr.movkd 10 253) = none ∧ wellFormed (Instr.movkd 10 253) = false ∧ Handles (regs [])) ∧
    (kindOf (Instr.shli 2 2 0 64) = none ∧ wellFormed (Instr.shli 2 2 0 64) = false ∧ Handles (regs [])) ∧
    (kindOf (Instr.cas 9 2 0 3 1 2) = none ∧ wellFormed (Instr.cas 9 2 0 3 1 2) = false ∧ Handles (regs [])) ∧
    (kindOf (Instr.cpush 18 0) = none ∧ wellFormed (Instr.cpush 18 0) = false ∧ Handles (regs [])) ∧
    (kindOf (Instr.dqpop 6) = none ∧ wellFormed (Instr.dqpop 6) = false ∧ Handles (regs [])) ∧
    (kindOf (Instr.fence 0 0) = none ∧ wellFormed (Instr.fence 0 0) = false ∧ Handles (regs [])) ∧
    (kindOf (Instr.nwait 1 2 0 7 0) = none ∧ wellFormed (Instr.nwait 1 2 0 7 0) = false ∧ Handles (regs [])) ∧
    (kindOf (Instr.setk 1 0 64) = none ∧ wellFormed (Instr.setk 1 0 64) = false ∧ Handles (regs [])) ∧
    (kindOf (Instr.ldD 1 5 0 2 2 2) = none ∧ wellFormed (Instr.ldD 1 5 0 2 2 2) = false ∧ Handles (regs [])) ∧
    (kindOf (Instr.stt 1 2 0 0 1 0) = none ∧ wellFormed (Instr.stt 1 2 0 0 1 0) = false ∧ Handles (regs [])) ∧
    (kindOf (Instr.amoAddBatch 1 2 0 6 1 0) = none ∧ wellFormed (Instr.amoAddBatch 1 2 0 6 1 0) = false ∧ Handles (regs [])) ∧
    (kindOf (Instr.cvtffN 1 2 8 0) = none ∧ wellFormed (Instr.cvtffN 1 2 8 0) = false ∧ Handles (regs [])) ∧
    (kindOf (Instr.dqpush 6 8 0) = none ∧ wellFormed (Instr.dqpush 6 8 0) = false ∧ Handles (regs [])) ∧
    (kindOf (Instr.notify 1 2 0 6 0) = none ∧ wellFormed (Instr.notify 1 2 0 6 0) = false ∧ Handles (regs [])) ∧
    (kindOf (Instr.bfi 1 2 0 7 60) = none ∧ wellFormed (Instr.bfi 1 2 0 7 60) = false ∧ Handles (regs [])) ∧
    (kindOf (Instr.getk 1 64) = none ∧ wellFormed (Instr.getk 1 64) = false ∧ Handles (regs [])) ∧
    (Handles (regs [])) ∧
    (w36.fetchWord w36.key = Fetch.fault 1 0 ∧ w36.cur.fetched = [] ∧ Handles w36) := by
  constructorm* _ ∧ _ <;> first
    | decide +kernel
    | (unfold Handles; decide +kernel)

def w37 : State := { lat { trap := some { rec_ := { cause := 15, pc := 0x80000, faddr := 0, ctx := 0, cycle := 100 } } } with hbm := [(0x1009, 0x20), (0x1011, 0x30)] }
def w38 : TrapRec := { cause := 15, pc := 0x80000, faddr := 0, ctx := 0, cycle := 100 }
theorem wit_TrapEntry :
    (Handles (regs []) ∧ (4095#13).toNat < 4096) ∧
    (Handles (regs [])) ∧
    (CanTrap latV) ∧
    (w37.trapDue (lno w37) = some w38 ∧ w37.drained (lno w37) = true ∧ w37.inTurn w38 = true ∧ w37.ringIndex w38.ctx = some 0 ∧ 4096 = (w37.ctx w38.ctx).saveb * 4096 ∧ 8192 = 4096 + 4096 + 64 * (0 % 256)) := by
  exact ⟨by unfold Handles; decide +kernel,
    by unfold Handles; decide +kernel,
    by unfold CanTrap; and_intros <;> first | decide +kernel | exact noPost (by decide +kernel),
    by decide +kernel⟩

def w39 : State := { one { tid := 3 } with hbm := [] }
def w40 : State := { one { tid := 3, launch := some 64 } with hbm := [], launches := [(64, { ctx := 0, q := 0, seq := 1, r := head0, st := .launched })] }
def w41 : State := { one { hnd := true, tid := 3 } with ctxs := [(0, { st := .running, saveb := 1, trapc := 5 })] }
def w42 : State := one { hnd := true }
theorem wit_TrapForwarded :
    ((Instr.trap 5, 19) ∈ [(Instr.trap 5#13, 19), (Instr.brk 5#13, 20)] ∧ (Instr.trap 5 = Instr.trap 5#13 → (5#13).toNat < 4096) ∧ w39.ctl.at_.slot < 16 ∧ (w39.cur.hnd = false ∧ w39.hbmRead ((w39.ctx w39.cur.ctx).saveb * 4096 + 8) 8 = 0 ∧ 19 = 19 ∧ 0 = 0 ∨ w39.cur.hnd = true ∧ w39.coreNo ≠ (w39.ctx w39.cur.ctx).trapc ∧ 19 = 35 ∧ 0 = 19) ∧ w39.ringIndex w39.cur.ctx = some 0 ∧ (∀ (c n : ℕ), (w39.ctx w39.cur.ctx).recAt = some (c, n) → n ≤ 4096) ∧ w39.cur.fills = []) ∧
    ((Instr.trap 7, 19) ∈ [(Instr.trap 7#13, 19), (Instr.brk 7#13, 20)] ∧ (Instr.trap 7 = Instr.trap 7#13 → (7#13).toNat < 4096) ∧ w40.ctl.at_.slot < 16 ∧ (w40.cur.hnd = false ∧ w40.hbmRead ((w40.ctx w40.cur.ctx).saveb * 4096 + 8) 8 = 0 ∧ 19 = 19 ∧ 0 = 0 ∨ w40.cur.hnd = true ∧ w40.coreNo ≠ (w40.ctx w40.cur.ctx).trapc ∧ 19 = 35 ∧ 0 = 19) ∧ w40.ringIndex w40.cur.ctx = some 0 ∧ (∀ (c n : ℕ), (w40.ctx w40.cur.ctx).recAt = some (c, n) → n ≤ 4096) ∧ w40.cur.fills = []) ∧
    ((Instr.brk 4099, 20) ∈ [(Instr.trap 4099#13, 19), (Instr.brk 4099#13, 20)] ∧ (Instr.brk 4099 = Instr.trap 4099#13 → (4099#13).toNat < 4096) ∧ w39.ctl.at_.slot < 16 ∧ (w39.cur.hnd = false ∧ w39.hbmRead ((w39.ctx w39.cur.ctx).saveb * 4096 + 8) 8 = 0 ∧ 20 = 20 ∧ 0 = 0 ∨ w39.cur.hnd = true ∧ w39.coreNo ≠ (w39.ctx w39.cur.ctx).trapc ∧ 20 = 35 ∧ 0 = 20) ∧ w39.ringIndex w39.cur.ctx = some 0 ∧ (∀ (c n : ℕ), (w39.ctx w39.cur.ctx).recAt = some (c, n) → n ≤ 4096) ∧ w39.cur.fills = []) ∧
    ((Instr.brk 7, 20) ∈ [(Instr.trap 7#13, 19), (Instr.brk 7#13, 20)] ∧ (Instr.brk 7 = Instr.trap 7#13 → (7#13).toNat < 4096) ∧ w41.ctl.at_.slot < 16 ∧ (w41.cur.hnd = false ∧ w41.hbmRead ((w41.ctx w41.cur.ctx).saveb * 4096 + 8) 8 = 0 ∧ 35 = 20 ∧ 20 = 0 ∨ w41.cur.hnd = true ∧ w41.coreNo ≠ (w41.ctx w41.cur.ctx).trapc ∧ 35 = 35 ∧ 20 = 20) ∧ w41.ringIndex w41.cur.ctx = some 0 ∧ (∀ (c n : ℕ), (w41.ctx w41.cur.ctx).recAt = some (c, n) → n ≤ 4096) ∧ w41.cur.fills = []) ∧
    ((Instr.trap 5, 19) ∈ [(Instr.trap 5#13, 19), (Instr.brk 5#13, 20)] ∧ (Instr.trap 5 = Instr.trap 5#13 → (5#13).toNat < 4096) ∧ w42.ctl.at_.slot < 16 ∧ w42.cur.hnd = true ∧ w42.coreNo = (w42.ctx w42.cur.ctx).trapc ∧ (w42.ctx w42.cur.ctx).st = CtxSt.running) := by
  constructorm* _ ∧ _ <;> first
    | decide +kernel
    | (and_intros <;> first | decide +kernel | exact noneAll (by decide +kernel))

def w43 : State := one { hnd := true, tpc := 0x80204 }
def w44 : State := { one { hnd := true, trec := 0x2000 } with hbm := [(0x1009, 0x20), (0x2027, 0x80)] }
def w45 : State := { one { hnd := true, trec := 0x2040 } with hbm := [(0x1009, 0x20), (0x2067, 0x80)] }
theorem wit_TrapReturn :
    (w43.cur.hnd = true ∧ w43.cur.trec = 0) ∧
    (Handles w21) ∧
    (w44.cur.hnd = true ∧ 0 < 256 ∧ BitVec.toNat w44.cur.trec = (w44.ctx w44.cur.ctx).saveb * 4096 + 4096 + 64 * 0 ∧ w44.cur.recRetired = false ∧ w44.cur.fills = [] ∧ (w44.ctx w44.cur.ctx).recs = [] ∧ (w44.hbmRead (BitVec.toNat w44.cur.trec + 32) 8).testBit 63 = true) ∧
    (w45.cur.hnd = true ∧ 1 < 256 ∧ BitVec.toNat w45.cur.trec = (w45.ctx w45.cur.ctx).saveb * 4096 + 4096 + 64 * 1 ∧ w45.cur.recRetired = false ∧ w45.cur.fills = [] ∧ (w45.ctx w45.cur.ctx).recs = [] ∧ (w45.hbmRead (BitVec.toNat w45.cur.trec + 32) 8).testBit 63 = true) := by
  exact ⟨by decide +kernel,
    by unfold Handles; decide +kernel,
    by decide +kernel,
    by decide +kernel⟩

def w46 : State := { one { tid := 5, tcls := true, hyp := 2, fltsel := 3, rfref := 9, ckok := true, barst := true } with cycle := 77, cores := [(0, { flt := [(3, { v := 123 })] })] }
def w47 : State := one { hnd := true, regs := [(1, full 0x1000)] }
def w48 : State := { one { rfref := 9, regs := [(1, full 8)] } with ctxs := [(0, { st := .running, saveb := 1, lref := 13 })] }
def w49 : State := { one { rfref := 9, regs := [(1, full 8)] } with clusters := [(0, { scalest := [(0, 15)] })] }
def w50 : State := { one { rfref := 9, regs := [(1, full 8)] } with ctxs := [(0, { st := .running, saveb := 1, lflag := BitVec.allOnes 256 })] }
def w51 : State := { one { rfref := 9, regs := [(1, full 8)] } with lathes := [(2, { hqStall := 13 })] }
def w52 : State := { one { rfref := 9, regs := [(1, full 8)] } with cores := [(0, { fifo := { stall := 13 } })] }
def w53 : State := one { hyp := 2, regs := [(1, full 0x1000)] }
def w54 : State := one { hyp := 2, rfref := 9, regs := [(1, full 8)] }
def w55 : State := one { rfref := 9, regs := [(1, full 8)] }
def w56 : State := one { hyp := 2, regs := [(1, full 8)] }
def w57 : State := one { regs := [(1, full 8)] }
def w58 : State := one { regs := [(1, full 2)] }
def w59 : State := one { regs := [(1, full (2^56))] }
def w60 : State := { one { regs := [(1, full 17)] } with mgmt := { fences := 2 } }
def w61 : State := one { regs := [(1, full 0x400)] }
theorem wit_SystemRegisters :
    ((w46.cur.reg (3#5).toNat).st ≠ RegState.pending) ∧
    (((15#13).toNat ∉ List.map (fun x => x.1) systemRegisters) ∧ ((regs []).cur.reg (3#5).toNat).st ≠ RegState.pending ∧ Handles (regs [])) ∧
    (((64#13).toNat ∉ List.map (fun x => x.1) systemRegisters) ∧ ((regs []).cur.reg (3#5).toNat).st ≠ RegState.pending ∧ Handles (regs [])) ∧
    ((w47.cur.reg (1#5).toNat).st = RegState.full ∧ (∀ p ∈ writableRegisters, (w47.cur.hyp = 0 ∨ p.1 ∉ contextRegisters) ∧ (p.1 = 33 → w47.cur.hnd = true) ∧ w47.kBadValue p.1 (BitVec.toNat (w47.gr 1#5)) = false)) ∧
    (10 ∈ clearableRegisters ∧ (w48.cur.reg (1#5).toNat).st = RegState.full ∧ (w48.cur.hyp = 0 ∨ 10 ∈ [11, 20, 21, 22, 23, 24])) ∧
    (11 ∈ clearableRegisters ∧ (w48.cur.reg (1#5).toNat).st = RegState.full ∧ (w48.cur.hyp = 0 ∨ 11 ∈ [11, 20, 21, 22, 23, 24])) ∧
    (13 ∈ clearableRegisters ∧ (w49.cur.reg (1#5).toNat).st = RegState.full ∧ (w49.cur.hyp = 0 ∨ 13 ∈ [11, 20, 21, 22, 23, 24])) ∧
    (17 ∈ clearableRegisters ∧ (w50.cur.reg (1#5).toNat).st = RegState.full ∧ (w50.cur.hyp = 0 ∨ 17 ∈ [11, 20, 21, 22, 23, 24])) ∧
    (22 ∈ clearableRegisters ∧ (w51.cur.reg (1#5).toNat).st = RegState.full ∧ (w51.cur.hyp = 0 ∨ 22 ∈ [11, 20, 21, 22, 23, 24])) ∧
    (24 ∈ clearableRegisters ∧ (w52.cur.reg (1#5).toNat).st = RegState.full ∧ (w52.cur.hyp = 0 ∨ 24 ∈ [11, 20, 21, 22, 23, 24])) ∧
    ((w53.cur.reg (1#5).toNat).st = RegState.full ∧ (w53.cur.hyp = 0 ∨ 7 ∉ contextRegisters) ∧ (7 = 33 → w53.cur.hnd = true) ∧ w53.kBadValue 7 (BitVec.toNat (w53.gr 1#5)) = false) ∧
    ((w53.cur.reg (1#5).toNat).st = RegState.full ∧ (w53.cur.hyp = 0 ∨ 8 ∉ contextRegisters) ∧ (8 = 33 → w53.cur.hnd = true) ∧ w53.kBadValue 8 (BitVec.toNat (w53.gr 1#5)) = false) ∧
    (11 ∈ clearableRegisters ∧ (w54.cur.reg (1#5).toNat).st = RegState.full ∧ (w54.cur.hyp = 0 ∨ 11 ∈ [11, 20, 21, 22, 23, 24])) ∧
    (35 ∈ [0, 1, 2, 3, 9, 12, 14, 25, 32, 34, 35] ∧ (w55.cur.reg (1#5).toNat).st = RegState.full ∧ Handles w55) ∧
    ((w56.cur.reg (1#5).toNat).st = RegState.full ∧ Handles w56 ∧ ((16#13).toNat ∈ contextRegisters ∧ w56.cur.hyp ≠ 0 ∨ (16#13).toNat = 33 ∧ w56.cur.hnd = false ∨ (16#13).toNat ∉ List.map (fun x => x.1) systemRegisters ∨ (16#13).toNat = 4 ∧ (BitVec.toNat (w56.gr 1#5) % 4 ≠ 0 ∨ 2 ^ 56 ≤ BitVec.toNat (w56.gr 1#5)) ∨ (16#13).toNat = 5 ∧ w56.fenced (BitVec.toNat (w56.gr 1#5) % 4096 / 16) = true ∨ (16#13).toNat = 6 ∧ BitVec.toNat (w56.gr 1#5) % 2048 ≠ 0)) ∧
    ((w57.cur.reg (1#5).toNat).st = RegState.full ∧ Handles w57 ∧ ((33#13).toNat ∈ contextRegisters ∧ w57.cur.hyp ≠ 0 ∨ (33#13).toNat = 33 ∧ w57.cur.hnd = false ∨ (33#13).toNat ∉ List.map (fun x => x.1) systemRegisters ∨ (33#13).toNat = 4 ∧ (BitVec.toNat (w57.gr 1#5) % 4 ≠ 0 ∨ 2 ^ 56 ≤ BitVec.toNat (w57.gr 1#5)) ∨ (33#13).toNat = 5 ∧ w57.fenced (BitVec.toNat (w57.gr 1#5) % 4096 / 16) = true ∨ (33#13).toNat = 6 ∧ BitVec.toNat (w57.gr 1#5) % 2048 ≠ 0)) ∧
    ((w57.cur.reg (1#5).toNat).st = RegState.full ∧ Handles w57 ∧ ((15#13).toNat ∈ contextRegisters ∧ w57.cur.hyp ≠ 0 ∨ (15#13).toNat = 33 ∧ w57.cur.hnd = false ∨ (15#13).toNat ∉ List.map (fun x => x.1) systemRegisters ∨ (15#13).toNat = 4 ∧ (BitVec.toNat (w57.gr 1#5) % 4 ≠ 0 ∨ 2 ^ 56 ≤ BitVec.toNat (w57.gr 1#5)) ∨ (15#13).toNat = 5 ∧ w57.fenced (BitVec.toNat (w57.gr 1#5) % 4096 / 16) = true ∨ (15#13).toNat = 6 ∧ BitVec.toNat (w57.gr 1#5) % 2048 ≠ 0)) ∧
    ((w57.cur.reg (1#5).toNat).st = RegState.full ∧ Handles w57 ∧ ((8191#13).toNat ∈ contextRegisters ∧ w57.cur.hyp ≠ 0 ∨ (8191#13).toNat = 33 ∧ w57.cur.hnd = false ∨ (8191#13).toNat ∉ List.map (fun x => x.1) systemRegisters ∨ (8191#13).toNat = 4 ∧ (BitVec.toNat (w57.gr 1#5) % 4 ≠ 0 ∨ 2 ^ 56 ≤ BitVec.toNat (w57.gr 1#5)) ∨ (8191#13).toNat = 5 ∧ w57.fenced (BitVec.toNat (w57.gr 1#5) % 4096 / 16) = true ∨ (8191#13).toNat = 6 ∧ BitVec.toNat (w57.gr 1#5) % 2048 ≠ 0)) ∧
    ((w58.cur.reg (1#5).toNat).st = RegState.full ∧ Handles w58 ∧ ((4#13).toNat ∈ contextRegisters ∧ w58.cur.hyp ≠ 0 ∨ (4#13).toNat = 33 ∧ w58.cur.hnd = false ∨ (4#13).toNat ∉ List.map (fun x => x.1) systemRegisters ∨ (4#13).toNat = 4 ∧ (BitVec.toNat (w58.gr 1#5) % 4 ≠ 0 ∨ 2 ^ 56 ≤ BitVec.toNat (w58.gr 1#5)) ∨ (4#13).toNat = 5 ∧ w58.fenced (BitVec.toNat (w58.gr 1#5) % 4096 / 16) = true ∨ (4#13).toNat = 6 ∧ BitVec.toNat (w58.gr 1#5) % 2048 ≠ 0)) ∧
    ((w59.cur.reg (1#5).toNat).st = RegState.full ∧ Handles w59 ∧ ((4#13).toNat ∈ contextRegisters ∧ w59.cur.hyp ≠ 0 ∨ (4#13).toNat = 33 ∧ w59.cur.hnd = false ∨ (4#13).toNat ∉ List.map (fun x => x.1) systemRegisters ∨ (4#13).toNat = 4 ∧ (BitVec.toNat (w59.gr 1#5) % 4 ≠ 0 ∨ 2 ^ 56 ≤ BitVec.toNat (w59.gr 1#5)) ∨ (4#13).toNat = 5 ∧ w59.fenced (BitVec.toNat (w59.gr 1#5) % 4096 / 16) = true ∨ (4#13).toNat = 6 ∧ BitVec.toNat (w59.gr 1#5) % 2048 ≠ 0)) ∧
    ((w60.cur.reg (1#5).toNat).st = RegState.full ∧ Handles w60 ∧ ((5#13).toNat ∈ contextRegisters ∧ w60.cur.hyp ≠ 0 ∨ (5#13).toNat = 33 ∧ w60.cur.hnd = false ∨ (5#13).toNat ∉ List.map (fun x => x.1) systemRegisters ∨ (5#13).toNat = 4 ∧ (BitVec.toNat (w60.gr 1#5) % 4 ≠ 0 ∨ 2 ^ 56 ≤ BitVec.toNat (w60.gr 1#5)) ∨ (5#13).toNat = 5 ∧ w60.fenced (BitVec.toNat (w60.gr 1#5) % 4096 / 16) = true ∨ (5#13).toNat = 6 ∧ BitVec.toNat (w60.gr 1#5) % 2048 ≠ 0)) ∧
    ((w61.cur.reg (1#5).toNat).st = RegState.full ∧ Handles w61 ∧ ((6#13).toNat ∈ contextRegisters ∧ w61.cur.hyp ≠ 0 ∨ (6#13).toNat = 33 ∧ w61.cur.hnd = false ∨ (6#13).toNat ∉ List.map (fun x => x.1) systemRegisters ∨ (6#13).toNat = 4 ∧ (BitVec.toNat (w61.gr 1#5) % 4 ≠ 0 ∨ 2 ^ 56 ≤ BitVec.toNat (w61.gr 1#5)) ∨ (6#13).toNat = 5 ∧ w61.fenced (BitVec.toNat (w61.gr 1#5) % 4096 / 16) = true ∨ (6#13).toNat = 6 ∧ BitVec.toNat (w61.gr 1#5) % 2048 ≠ 0)) := by
  constructorm* _ ∧ _ <;> first
    | decide +kernel
    | (unfold Handles; decide +kernel)

def w62 : State := data [(1, full 0x100000)]
theorem wit_LoadResults :
    (Ready (data [(1, full spVa)]) (Instr.ldB 3#5 1#5 0#1 0#3 0#2 1#8) [1#5] [3#5] ∧ Quiet (data [(1, full spVa)]) ∧ ea (data [(1, full spVa)]) (1#5) (1#8) 1 % 1 = 0 ∧ (data [(1, full spVa)]).resolve (data [(1, full spVa)]).key (ea (data [(1, full spVa)]) (1#5) (1#8) 1) Acc3.read = Res.at_ (Tgt.sp 24577) ∧ (data [(1, full spVa)]).spPoisoned 24577 1 = false) ∧
    (Ready (data [(1, full spVa)]) (Instr.ldH 3#5 1#5 0#1 0#3 0#2 1#8) [1#5] [3#5] ∧ Quiet (data [(1, full spVa)]) ∧ ea (data [(1, full spVa)]) (1#5) (1#8) 2 % 2 = 0 ∧ (data [(1, full spVa)]).resolve (data [(1, full spVa)]).key (ea (data [(1, full spVa)]) (1#5) (1#8) 2) Acc3.read = Res.at_ (Tgt.sp 24578) ∧ (data [(1, full spVa)]).spPoisoned 24578 2 = false) ∧
    (Ready (data [(1, full spVa)]) (Instr.ldW 3#5 1#5 0#1 0#3 0#2 1#8) [1#5] [3#5] ∧ Quiet (data [(1, full spVa)]) ∧ ea (data [(1, full spVa)]) (1#5) (1#8) 4 % 4 = 0 ∧ (data [(1, full spVa)]).resolve (data [(1, full spVa)]).key (ea (data [(1, full spVa)]) (1#5) (1#8) 4) Acc3.read = Res.at_ (Tgt.sp 24580) ∧ (data [(1, full spVa)]).spPoisoned 24580 4 = false) ∧
    (Ready (data [(1, full spVa)]) (Instr.ldD 3#5 1#5 0#1 5#3 1#2 1#8) [1#5] [3#5] ∧ Quiet (data [(1, full spVa)]) ∧ ea (data [(1, full spVa)]) (1#5) (1#8) 8 % 8 = 0 ∧ (data [(1, full spVa)]).resolve (data [(1, full spVa)]).key (ea (data [(1, full spVa)]) (1#5) (1#8) 8) Acc3.read = Res.at_ (Tgt.sp 24584) ∧ (data [(1, full spVa)]).spPoisoned 24584 8 = false) ∧
    (Ready (data [(1, full spVa)]) (Instr.ldzB 3#5 1#5 0#1 0#3 0#2 1#8) [1#5] [3#5] ∧ Quiet (data [(1, full spVa)]) ∧ ea (data [(1, full spVa)]) (1#5) (1#8) 1 % 1 = 0 ∧ (data [(1, full spVa)]).resolve (data [(1, full spVa)]).key (ea (data [(1, full spVa)]) (1#5) (1#8) 1) Acc3.read = Res.at_ (Tgt.sp 24577) ∧ (data [(1, full spVa)]).spPoisoned 24577 1 = false) ∧
    (Ready (data [(1, full spVa)]) (Instr.ldzH 3#5 1#5 0#1 0#3 0#2 1#8) [1#5] [3#5] ∧ Quiet (data [(1, full spVa)]) ∧ ea (data [(1, full spVa)]) (1#5) (1#8) 2 % 2 = 0 ∧ (data [(1, full spVa)]).resolve (data [(1, full spVa)]).key (ea (data [(1, full spVa)]) (1#5) (1#8) 2) Acc3.read = Res.at_ (Tgt.sp 24578) ∧ (data [(1, full spVa)]).spPoisoned 24578 2 = false) ∧
    (Ready (data [(1, full spVa)]) (Instr.ldzW 3#5 1#5 0#1 0#3 0#2 1#8) [1#5] [3#5] ∧ Quiet (data [(1, full spVa)]) ∧ ea (data [(1, full spVa)]) (1#5) (1#8) 4 % 4 = 0 ∧ (data [(1, full spVa)]).resolve (data [(1, full spVa)]).key (ea (data [(1, full spVa)]) (1#5) (1#8) 4) Acc3.read = Res.at_ (Tgt.sp 24580) ∧ (data [(1, full spVa)]).spPoisoned 24580 4 = false) ∧
    (Ready (data [(1, full 524288)]) (Instr.ldW 3#5 1#5 0#1 0#3 0#2 1#8) [1#5] [3#5] ∧ Quiet (data [(1, full 524288)]) ∧ ea (data [(1, full 524288)]) (1#5) (1#8) 4 % 4 = 0 ∧ (data [(1, full 524288)]).resolve (data [(1, full 524288)]).key (ea (data [(1, full 524288)]) (1#5) (1#8) 4) Acc3.read = Res.at_ (Tgt.hbm 524292) ∧ (data [(1, full 524288)]).poisoned 524292 4 = false ∧ (data [(1, full 524288)]).cur.hyp = 0 ∧ ((data [(1, full 524288)]).core (data [(1, full 524288)]).coreNo).l1 = [] ∧ (data [(1, full 524288)]).ctl.at_.slot < 16) ∧
    (Ready (data [(1, full 524288)]) (Instr.ldD 3#5 1#5 0#1 5#3 1#2 0#8) [1#5] [3#5] ∧ Quiet (data [(1, full 524288)]) ∧ ea (data [(1, full 524288)]) (1#5) (0#8) 8 % 8 = 0 ∧ (data [(1, full 524288)]).resolve (data [(1, full 524288)]).key (ea (data [(1, full 524288)]) (1#5) (0#8) 8) Acc3.read = Res.at_ (Tgt.hbm 524288) ∧ (data [(1, full 524288)]).poisoned 524288 8 = false ∧ (data [(1, full 524288)]).cur.hyp = 0 ∧ ((data [(1, full 524288)]).core (data [(1, full 524288)]).coreNo).l1 = [] ∧ (data [(1, full 524288)]).ctl.at_.slot < 16) ∧
    (Ready w62 (Instr.ldH 3#5 1#5 0#1 0#3 0#2 1#8) [1#5] [3#5] ∧ Quiet w62 ∧ ea w62 (1#5) (1#8) 2 % 2 = 0 ∧ w62.resolve w62.key (ea w62 (1#5) (1#8) 2) Acc3.read = Res.at_ (Tgt.host 1048578) ∧ w62.hostFails 1048578 2 = false ∧ w62.ctl.at_.slot < 16) ∧
    (Ready w62 (Instr.ldH 3#5 1#5 0#1 5#3 1#2 1#8) [1#5] [3#5] ∧ Quiet w62 ∧ ea w62 (1#5) (1#8) 2 % 2 = 0 ∧ w62.resolve w62.key (ea w62 (1#5) (1#8) 2) Acc3.read = Res.at_ (Tgt.host 1048578) ∧ w62.hostFails 1048578 2 = false ∧ w62.ctl.at_.slot < 16) := by
  constructorm* _ ∧ _ <;> first
    | decide +kernel
    | (unfold Quiet; decide +kernel)
    | (unfold Ready; decide +kernel)

def w63 : State := data [(1, full spVa), (2, full 0x1122334455667788)]
def w64 : State := data [(1, full 0x80000), (2, full 0x1122334455667788)]
def w65 : State := data [(1, full 0x100000), (2, full 0x1122334455667788)]
def w66 : State := data [(1, full 0x180000), (2, full 0x1122334455667788)]
def w67 : State := { data [] with slots := [(0, { st := .active, hyp := 3, regs := [(1, full 0x180000), (2, full 0x1122334455667788)] })] }
theorem wit_PlainStores :
    (Ready w63 (Instr.stB 2#5 1#5 0#1 0#3 0#2 1#8) [1#5, 2#5] [] ∧ Quiet w63 ∧ ea w63 (1#5) (1#8) 1 % 1 = 0 ∧ w63.resolve w63.key (ea w63 (1#5) (1#8) 1) Acc3.write = Res.at_ (Tgt.sp 24577) ∧ Writable w63 24577 1) ∧
    (Ready w63 (Instr.stH 2#5 1#5 0#1 0#3 0#2 1#8) [1#5, 2#5] [] ∧ Quiet w63 ∧ ea w63 (1#5) (1#8) 2 % 2 = 0 ∧ w63.resolve w63.key (ea w63 (1#5) (1#8) 2) Acc3.write = Res.at_ (Tgt.sp 24578) ∧ Writable w63 24578 2) ∧
    (Ready w63 (Instr.stW 2#5 1#5 0#1 0#3 0#2 1#8) [1#5, 2#5] [] ∧ Quiet w63 ∧ ea w63 (1#5) (1#8) 4 % 4 = 0 ∧ w63.resolve w63.key (ea w63 (1#5) (1#8) 4) Acc3.write = Res.at_ (Tgt.sp 24580) ∧ Writable w63 24580 4) ∧
    (Ready w63 (Instr.stD 2#5 1#5 0#1 3#3 2#2 1#8) [1#5, 2#5] [] ∧ Quiet w63 ∧ ea w63 (1#5) (1#8) 8 % 8 = 0 ∧ w63.resolve w63.key (ea w63 (1#5) (1#8) 8) Acc3.write = Res.at_ (Tgt.sp 24584) ∧ Writable w63 24584 8) ∧
    (Ready w63 (Instr.stD 2#5 1#5 0#1 5#3 2#2 255#8) [1#5, 2#5] [] ∧ Quiet w63 ∧ ea w63 (1#5) (255#8) 8 % 8 = 0 ∧ w63.resolve w63.key (ea w63 (1#5) (255#8) 8) Acc3.write = Res.at_ (Tgt.sp 24568) ∧ Writable w63 24568 8) ∧
    (Ready w64 (Instr.stW (2#5) (1#5) (0#1) 0 0 1#8) [1#5, 2#5] [] ∧ Quiet w64 ∧ ea w64 (1#5) (1#8) 4 % 4 = 0 ∧ w64.ctl.at_.slot < 16 ∧ (w64.resolve w64.key (ea w64 (1#5) (1#8) 4) Acc3.write = Res.at_ (Tgt.hbm 524292) ∧ 0 = 0 ∧ 0 = 0 ∨ w64.resolve w64.key (ea w64 (1#5) (1#8) 4) Acc3.write = Res.at_ (Tgt.host 524292) ∧ 0 = 1 ∧ 0 = 0 ∨ w64.resolve w64.key (ea w64 (1#5) (1#8) 4) Acc3.write = Res.at_ (Tgt.remote 0 524292) ∧ 0 = 2) ∧ (0 = 0 ∨ w64.cur.hyp = 0)) ∧
    (Ready w65 (Instr.stB (2#5) (1#5) (0#1) 0 0 1#8) [1#5, 2#5] [] ∧ Quiet w65 ∧ ea w65 (1#5) (1#8) 1 % 1 = 0 ∧ w65.ctl.at_.slot < 16 ∧ (w65.resolve w65.key (ea w65 (1#5) (1#8) 1) Acc3.write = Res.at_ (Tgt.hbm 1048577) ∧ 1 = 0 ∧ 0 = 0 ∨ w65.resolve w65.key (ea w65 (1#5) (1#8) 1) Acc3.write = Res.at_ (Tgt.host 1048577) ∧ 1 = 1 ∧ 0 = 0 ∨ w65.resolve w65.key (ea w65 (1#5) (1#8) 1) Acc3.write = Res.at_ (Tgt.remote 0 1048577) ∧ 1 = 2) ∧ (1 = 0 ∨ w65.cur.hyp = 0)) ∧
    (Ready w66 (Instr.stD (2#5) (1#5) (0#1) 0 0 1#8) [1#5, 2#5] [] ∧ Quiet w66 ∧ ea w66 (1#5) (1#8) 8 % 8 = 0 ∧ w66.ctl.at_.slot < 16 ∧ (w66.resolve w66.key (ea w66 (1#5) (1#8) 8) Acc3.write = Res.at_ (Tgt.hbm 1572872) ∧ 2 = 0 ∧ 5 = 0 ∨ w66.resolve w66.key (ea w66 (1#5) (1#8) 8) Acc3.write = Res.at_ (Tgt.host 1572872) ∧ 2 = 1 ∧ 5 = 0 ∨ w66.resolve w66.key (ea w66 (1#5) (1#8) 8) Acc3.write = Res.at_ (Tgt.remote 5 1572872) ∧ 2 = 2) ∧ (2 = 0 ∨ w66.cur.hyp = 0)) ∧
    (Ready w67 (Instr.stD (2#5) (1#5) (0#1) 0 0 1#8) [1#5, 2#5] [] ∧ Quiet w67 ∧ ea w67 (1#5) (1#8) 8 % 8 = 0 ∧ w67.ctl.at_.slot < 16 ∧ (w67.resolve w67.key (ea w67 (1#5) (1#8) 8) Acc3.write = Res.at_ (Tgt.hbm 1572872) ∧ 2 = 0 ∧ 5 = 0 ∨ w67.resolve w67.key (ea w67 (1#5) (1#8) 8) Acc3.write = Res.at_ (Tgt.host 1572872) ∧ 2 = 1 ∧ 5 = 0 ∨ w67.resolve w67.key (ea w67 (1#5) (1#8) 8) Acc3.write = Res.at_ (Tgt.remote 5 1572872) ∧ 2 = 2) ∧ 2 ≠ 0 ∧ w67.cur.hyp ≠ 0 ∧ Handles w67) := by
  constructorm* _ ∧ _ <;> first
    | decide +kernel
    | (unfold Handles; decide +kernel)
    | (unfold Quiet; decide +kernel)
    | (unfold Ready; decide +kernel)
    | (unfold Writable; decide +kernel)

def w68 : State := data [(1, full (11 * 2^59 + spVa))]
def w69 : State := data [(1, full (10 * 2^59 + spVa))]
def w70 : State := data [(1, full (10 * 2^59 + spVa)), (3, full 0x3FF8000000000000)]
def w71 : State := data [(1, full (31 * 2^59 + spVa))]
def w72 : State := data [(1, full (31 * 2^59 + spVa)), (3, full 1)]
theorem wit_TypedAccess :
    (Quiet w68 ∧ 11 = BitVec.toNat (w68.gr 1#5) / 2 ^ 59 ∧ 2 = elemSize 11 ∧ Ready w68 (Instr.ldt 3#5 1#5 0#1 0#3 0#2 2#8) [1#5] [3#5] ∧ formatBad (w68.gr 1#5) true = false ∧ ea w68 (1#5) (2#8) 2 % 2 = 0 ∧ w68.resolve w68.key (ea w68 (1#5) (2#8) 2) Acc3.read = Res.at_ (Tgt.sp 24580) ∧ w68.spPoisoned 24580 2 = false) ∧
    (Quiet w69 ∧ 10 = BitVec.toNat (w69.gr 1#5) / 2 ^ 59 ∧ 2 = elemSize 10 ∧ Ready w69 (Instr.ldt 3#5 1#5 0#1 0#3 0#2 2#8) [1#5] [3#5] ∧ formatBad (w69.gr 1#5) true = false ∧ ea w69 (1#5) (2#8) 2 % 2 = 0 ∧ w69.resolve w69.key (ea w69 (1#5) (2#8) 2) Acc3.read = Res.at_ (Tgt.sp 24580) ∧ w69.spPoisoned 24580 2 = false) ∧
    (Quiet w70 ∧ 10 = BitVec.toNat (w70.gr 1#5) / 2 ^ 59 ∧ 2 = elemSize 10 ∧ Ready w70 (Instr.stt 3#5 1#5 0#1 0#3 0#2 2#8) [1#5, 3#5] [] ∧ formatBad (w70.gr 1#5) true = false ∧ ea w70 (1#5) (2#8) 2 % 2 = 0 ∧ w70.resolve w70.key (ea w70 (1#5) (2#8) 2) Acc3.write = Res.at_ (Tgt.sp 24580) ∧ Writable w70 24580 2) ∧
    (Quiet w71 ∧ 31 = BitVec.toNat (w71.gr 1#5) / 2 ^ 59 ∧ 1 = elemSize 31 ∧ Ready w71 (Instr.ldt 3#5 1#5 0#1 0#3 0#2 2#8) [1#5] [3#5] ∧ formatBad (w71.gr 1#5) true = true ∧ Handles w71) ∧
    (Quiet w72 ∧ 31 = BitVec.toNat (w72.gr 1#5) / 2 ^ 59 ∧ 1 = elemSize 31 ∧ Ready w72 (Instr.stt 3#5 1#5 0#1 0#3 0#2 2#8) [1#5, 3#5] [] ∧ formatBad (w72.gr 1#5) true = true ∧ Handles w72) := by
  exact ⟨by unfold Quiet Ready; decide +kernel,
    by unfold Quiet Ready; decide +kernel,
    by unfold Quiet Ready Writable; decide +kernel,
    by unfold Quiet Ready Handles; decide +kernel,
    by unfold Quiet Ready Handles; decide +kernel⟩

def w73 : State := data [(1, full spVa), (2, full 0x8F8E8D8C8B8A8988), (3, full 77)]
def w74 : State := data [(1, full spVa), (2, full 0x8F8E8D8C8B8A8989), (3, full 77)]
def w75 : State := { data [(1, full spVa), (2, full 1)] with sp := [(0x6000, 3), (0x6002, 9)] }
def w76 : State := { data [(1, full spVa), (2, full 1)] with sp := [(0x6000, 8), (0x6002, 9)] }
def w77 : State := { data [(1, full spVa), (2, full 1)] with sp := [(0x6000, 3), (0x6002, 3)] }
def w82 : State := data [(1, full 0x80000), (2, full 0x8F8E8D8C8B8A8988), (3, full 77)]
def w83 : State := data [(1, full 0x80000), (2, full 5), (3, full 77)]
def w84 : State := { data [(1, full 0x80000), (2, full 1)] with hbm := [(0x1009, 0x20), (0x80000, 3), (0x80002, 9)] }
def w85 : State := { data [(1, full 0x80000), (2, full 1)] with hbm := [(0x1009, 0x20), (0x80000, 8), (0x80002, 9)] }
def w86 : State := { data [(1, full 0x80000), (2, full 1)] with hbm := [(0x1009, 0x20), (0x80000, 9), (0x80002, 9)] }
def w87 : State := { data [(1, full 0x80000), (2, full 1)] with hbm := [(0x1009, 0x20), (0x80000, 8), (0x80004, 9)] }
theorem wit_AtomicResults :
    (Quiet w63 ∧ ea w63 (1#5) (1#8) 8 % 8 = 0 ∧ w63.resolve w63.key (ea w63 (1#5) (1#8) 8) Acc3.write = Res.at_ (Tgt.sp 24584) ∧ Writable w63 24584 8 ∧ w63.spPoisoned 24584 8 = false ∧ (∀ p ∈ atomicOps, Ready w63 (p.1 2#5 1#5 0#1 0#3 0#2 1#8) [1#5, 2#5] [2#5])) ∧
    (Quiet w64 ∧ ea w64 (1#5) (1#8) 8 % 8 = 0 ∧ w64.resolve w64.key (ea w64 (1#5) (1#8) 8) Acc3.write = Res.at_ (Tgt.hbm 524296) ∧ w64.cur.hyp = 0 ∧ BuffersEmpty w64 ∧ w64.poisoned 524296 8 = false ∧ (∀ p ∈ atomicOps, Ready w64 (p.1 2#5 1#5 0#1 5#3 3#2 1#8) [1#5, 2#5] [2#5])) ∧
    (Quiet w73 ∧ ea w73 (1#5) (1#8) 8 % 8 = 0 ∧ w73.resolve w73.key (ea w73 (1#5) (1#8) 8) Acc3.write = Res.at_ (Tgt.sp 24584) ∧ Writable w73 24584 8 ∧ w73.spPoisoned 24584 8 = false ∧ 10344361028892658056#64 = BitVec.ofNat 64 (leNat (w73.spBytes 24584 8)) ∧ Ready w73 (Instr.cas 2#5 1#5 0#1 0#3 0#2 1#8) [1#5, 2#5, 2#5 + 1#5] [2#5]) ∧
    (Quiet w74 ∧ ea w74 (1#5) (1#8) 8 % 8 = 0 ∧ w74.resolve w74.key (ea w74 (1#5) (1#8) 8) Acc3.write = Res.at_ (Tgt.sp 24584) ∧ Writable w74 24584 8 ∧ w74.spPoisoned 24584 8 = false ∧ 10344361028892658056#64 = BitVec.ofNat 64 (leNat (w74.spBytes 24584 8)) ∧ Ready w74 (Instr.cas 2#5 1#5 0#1 0#3 0#2 1#8) [1#5, 2#5, 2#5 + 1#5] [2#5]) ∧
    (Quiet w75 ∧ ea w75 (1#5) (0#8) 8 % 8 = 0 ∧ w75.resolve w75.key (ea w75 (1#5) (0#8) 8) Acc3.write = Res.at_ (Tgt.sp 24576) ∧ Writable w75 24576 8 ∧ w75.spPoisoned 24576 8 = false ∧ 589827#64 = BitVec.ofNat 64 (leNat (w75.spBytes 24576 8)) ∧ Ready w75 (Instr.amoAddBatch 2#5 1#5 0#1 0#3 0#2 0#8) [1#5, 2#5] [2#5] ∧ BitVec.extractLsb' 32 31 589827#64 = 0#31) ∧
    (Quiet w76 ∧ ea w76 (1#5) (0#8) 8 % 8 = 0 ∧ w76.resolve w76.key (ea w76 (1#5) (0#8) 8) Acc3.write = Res.at_ (Tgt.sp 24576) ∧ Writable w76 24576 8 ∧ w76.spPoisoned 24576 8 = false ∧ 589832#64 = BitVec.ofNat 64 (leNat (w76.spBytes 24576 8)) ∧ Ready w76 (Instr.amoAddBatch 2#5 1#5 0#1 0#3 0#2 0#8) [1#5, 2#5] [2#5] ∧ BitVec.extractLsb' 32 31 589832#64 = 0#31) ∧
    (Quiet w77 ∧ ea w77 (1#5) (0#8) 8 % 8 = 0 ∧ w77.resolve w77.key (ea w77 (1#5) (0#8) 8) Acc3.write = Res.at_ (Tgt.sp 24576) ∧ Writable w77 24576 8 ∧ w77.spPoisoned 24576 8 = false ∧ 196611#64 = BitVec.ofNat 64 (leNat (w77.spBytes 24576 8)) ∧ Ready w77 (Instr.amoAddBatch 2#5 1#5 0#1 0#3 0#2 0#8) [1#5, 2#5] [2#5] ∧ BitVec.extractLsb' 32 31 196611#64 = 0#31) ∧
    (Quiet w82 ∧ ea w82 (1#5) (1#8) 8 % 8 = 0 ∧ w82.resolve w82.key (ea w82 (1#5) (1#8) 8) Acc3.write = Res.at_ (Tgt.hbm 524296) ∧ w82.cur.hyp = 0 ∧ BuffersEmpty w82 ∧ w82.poisoned 524296 8 = false ∧ 10344361028892658056#64 = BitVec.ofNat 64 (leNat (w82.hbm.readBytes 524296 8)) ∧ Ready w82 (Instr.cas 2#5 1#5 0#1 5#3 3#2 1#8) [1#5, 2#5, 2#5 + 1#5] [2#5]) ∧
    (Quiet w83 ∧ ea w83 (1#5) (1#8) 8 % 8 = 0 ∧ w83.resolve w83.key (ea w83 (1#5) (1#8) 8) Acc3.write = Res.at_ (Tgt.hbm 524296) ∧ w83.cur.hyp = 0 ∧ BuffersEmpty w83 ∧ w83.poisoned 524296 8 = false ∧ 10344361028892658056#64 = BitVec.ofNat 64 (leNat (w83.hbm.readBytes 524296 8)) ∧ Ready w83 (Instr.cas 2#5 1#5 0#1 5#3 3#2 1#8) [1#5, 2#5, 2#5 + 1#5] [2#5]) ∧
    (Quiet w84 ∧ ea w84 (1#5) (0#8) 8 % 8 = 0 ∧ w84.resolve w84.key (ea w84 (1#5) (0#8) 8) Acc3.write = Res.at_ (Tgt.hbm 524288) ∧ w84.cur.hyp = 0 ∧ BuffersEmpty w84 ∧ w84.poisoned 524288 8 = false ∧ 589827#64 = BitVec.ofNat 64 (leNat (w84.hbm.readBytes 524288 8)) ∧ Ready w84 (Instr.amoAddBatch 2#5 1#5 0#1 0#3 0#2 0#8) [1#5, 2#5] [2#5] ∧ BitVec.extractLsb' 32 31 589827#64 = 0#31) ∧
    (Quiet w85 ∧ ea w85 (1#5) (0#8) 8 % 8 = 0 ∧ w85.resolve w85.key (ea w85 (1#5) (0#8) 8) Acc3.write = Res.at_ (Tgt.hbm 524288) ∧ w85.cur.hyp = 0 ∧ BuffersEmpty w85 ∧ w85.poisoned 524288 8 = false ∧ 589832#64 = BitVec.ofNat 64 (leNat (w85.hbm.readBytes 524288 8)) ∧ Ready w85 (Instr.amoAddBatch 2#5 1#5 0#1 0#3 0#2 0#8) [1#5, 2#5] [2#5] ∧ BitVec.extractLsb' 32 31 589832#64 = 0#31) ∧
    (Quiet w86 ∧ ea w86 (1#5) (0#8) 8 % 8 = 0 ∧ w86.resolve w86.key (ea w86 (1#5) (0#8) 8) Acc3.write = Res.at_ (Tgt.hbm 524288) ∧ w86.cur.hyp = 0 ∧ BuffersEmpty w86 ∧ w86.poisoned 524288 8 = false ∧ 589833#64 = BitVec.ofNat 64 (leNat (w86.hbm.readBytes 524288 8)) ∧ Ready w86 (Instr.amoAddBatch 2#5 1#5 0#1 0#3 0#2 0#8) [1#5, 2#5] [2#5] ∧ BitVec.extractLsb' 32 31 589833#64 = 0#31) ∧
    (Quiet w87 ∧ ea w87 (1#5) (0#8) 8 % 8 = 0 ∧ w87.resolve w87.key (ea w87 (1#5) (0#8) 8) Acc3.write = Res.at_ (Tgt.hbm 524288) ∧ w87.cur.hyp = 0 ∧ BuffersEmpty w87 ∧ w87.poisoned 524288 8 = false ∧ 38654705672#64 = BitVec.ofNat 64 (leNat (w87.hbm.readBytes 524288 8)) ∧ Ready w87 (Instr.amoAddBatch 2#5 1#5 0#1 0#3 1#2 0#8) [1#5, 2#5] [2#5] ∧ BitVec.extractLsb' 32 31 38654705672#64 ≠ 0#31 ∧ Handles w87 ∧ isRel 1#2 = false) := by
  constructorm* _ ∧ _ <;> first
    | decide +kernel
    | (unfold BuffersEmpty; and_intros <;> first | decide +kernel | exact fun _ => rfl)
    | (unfold Handles; decide +kernel)
    | (unfold Quiet; decide +kernel)
    | (unfold Ready; decide +kernel)
    | (unfold Writable; decide +kernel)

def w78 : State := data [(1, full spVa), (2, full 0x8F8E8D8C8B8A8988)]
def w79 : State := data [(1, full spVa), (2, full 0x8F8E8D8C8B8A8989)]
def w88 : State := { data [(1, full 0x80000), (2, full 5)] with hbm := [(0x1009, 0x20), (0x80008, 10)], slices := [(homeSlice 0x80008, { waiters := [{ who := .slot 7, pa := 0x80008, seen := 10 }] })], slots := (data [(1, full 0x80000), (2, full 5)]).slots ++ [(7, { st := .parkedWait, wait := .nwait 0x80008 12 2 })] }
def w89 : State := data [(1, full 0x80000), (2, full 5)]
def w90 : State := data [(1, full 0x80000), (2, full 0x8F8E8D8C8B8A8989)]
theorem wit_NotificationWords :
    (Quiet w63 ∧ ea w63 (1#5) (1#8) 8 % 8 = 0 ∧ w63.spPoisoned 24584 8 = false ∧ 10344361028892658056 = leNat (w63.spBytes 24584 8) ∧ Ready w63 (Instr.notify 2#5 1#5 0#1 2#3 1#8) [1#5, 2#5] [] ∧ w63.resolve w63.key (ea w63 (1#5) (1#8) 8) Acc3.write = Res.at_ (Tgt.sp 24584) ∧ Writable w63 24584 8) ∧
    (Quiet w78 ∧ ea w78 (1#5) (1#8) 8 % 8 = 0 ∧ w78.spPoisoned 24584 8 = false ∧ 10344361028892658056 = leNat (w78.spBytes 24584 8) ∧ Ready w78 (Instr.nwait 2#5 1#5 0#1 2#3 1#8) [1#5, 2#5] [] ∧ w78.resolve w78.key (ea w78 (1#5) (1#8) 8) Acc3.read = Res.at_ (Tgt.sp 24584)) ∧
    (Quiet w79 ∧ ea w79 (1#5) (1#8) 8 % 8 = 0 ∧ w79.spPoisoned 24584 8 = false ∧ 10344361028892658056 = leNat (w79.spBytes 24584 8) ∧ Ready w79 (Instr.nwait 2#5 1#5 0#1 2#3 1#8) [1#5, 2#5] [] ∧ w79.resolve w79.key (ea w79 (1#5) (1#8) 8) Acc3.read = Res.at_ (Tgt.sp 24584)) ∧
    (Quiet w88 ∧ w88.ctl.at_.slot < 16 ∧ ea w88 (1#5) (1#8) 8 % 8 = 0 ∧ w88.cur.hyp = 0 ∧ BuffersEmpty w88 ∧ w88.poisoned 524296 8 = false ∧ 10 = leNat (w88.hbm.readBytes 524296 8) ∧ homeSlice 524296 = homeSlice 524296 ∧ 15 = (10 + BitVec.toNat (w88.gr 2#5)) % 2 ^ 64 ∧ Ready w88 (Instr.notify 2#5 1#5 0#1 2#3 1#8) [1#5, 2#5] [] ∧ w88.resolve w88.key (ea w88 (1#5) (1#8) 8) Acc3.write = Res.at_ (Tgt.hbm 524296)) ∧
    (Quiet w89 ∧ w89.ctl.at_.slot < 16 ∧ ea w89 (1#5) (1#8) 8 % 8 = 0 ∧ w89.cur.hyp = 0 ∧ BuffersEmpty w89 ∧ w89.poisoned 524296 8 = false ∧ 10344361028892658056 = leNat (w89.hbm.readBytes 524296 8) ∧ homeSlice 524296 = homeSlice 524296 ∧ 10344361028892658061 = (10344361028892658056 + BitVec.toNat (w89.gr 2#5)) % 2 ^ 64 ∧ Ready w89 (Instr.nwait 2#5 1#5 0#1 2#3 1#8) [1#5, 2#5] [] ∧ w89.resolve w89.key (ea w89 (1#5) (1#8) 8) Acc3.read = Res.at_ (Tgt.hbm 524296)) ∧
    (Quiet w90 ∧ w90.ctl.at_.slot < 16 ∧ ea w90 (1#5) (1#8) 8 % 8 = 0 ∧ w90.cur.hyp = 0 ∧ BuffersEmpty w90 ∧ w90.poisoned 524296 8 = false ∧ 10344361028892658056 = leNat (w90.hbm.readBytes 524296 8) ∧ homeSlice 524296 = homeSlice 524296 ∧ 2241977984075764497 = (10344361028892658056 + BitVec.toNat (w90.gr 2#5)) % 2 ^ 64 ∧ Ready w90 (Instr.nwait 2#5 1#5 0#1 2#3 1#8) [1#5, 2#5] [] ∧ w90.resolve w90.key (ea w90 (1#5) (1#8) 8) Acc3.read = Res.at_ (Tgt.hbm 524296)) := by
  constructorm* _ ∧ _ <;> first
    | decide +kernel
    | (unfold BuffersEmpty; and_intros <;> first | decide +kernel | exact fun _ => rfl)
    | (unfold Quiet; decide +kernel)
    | (unfold Ready; decide +kernel)
    | (unfold Writable; decide +kernel)

def w80 : TlbEntry := { pa := 0x80000, w := true, x := true, d := true }
def w81 : State := { data [(1, full spVa), (2, full 128)] with views := [(0x6004, { old := 3, bySwz := true })] }
theorem wit_OrderingInstructions :
    (Quiet (regs []) ∧ wellFormed (Instr.fence 5#3 3#2) = true) ∧
    (Quiet (regs []) ∧ wellFormed (Instr.fence 0#3 1#2) = true) ∧
    (Ready (data [(1, full 524352)]) (Instr.pf 1#5 0#1 0#8) [1#5] [] ∧ windowOf (ea (data [(1, full 524352)]) (1#5) (0#8) 32) = Window3.global ∧ (data [(1, full 524352)]).look (clusterOf (data [(1, full 524352)]).coreNo) (data [(1, full 524352)]).cur.ctx (ea (data [(1, full 524352)]) (1#5) (0#8) 32) Acc3.read (!(data [(1, full 524352)]).cur.hnd) false = Tr.ok w80 524352 ∧ w80.tgt = 0 ∧ (data [(1, full 524352)]).poisoned (524352 / 32 * 32) 32 = false ∧ (data [(1, full 524352)]).lookupWaits (clusterOf (data [(1, full 524352)]).coreNo) (data [(1, full 524352)]).cur.ctx (data [(1, full 524352)]).cur.hyp (524352 / 32 * 32) 32 = false ∧ (data [(1, full 524352)]).ctl.at_.slot < 16) ∧
    (Ready w81 (Instr.vjoin 1#5 2#5 0#1 0#1) [1#5, 2#5] [] ∧ Quiet w81 ∧ windowOf (BitVec.toNat (w81.gr 1#5) % 2 ^ 56) = Window3.scratch 24576 ∧ 24576 % 64 = 0 ∧ BitVec.toNat (w81.gr 2#5) % 64 = 0 ∧ 24576 + BitVec.toNat (w81.gr 2#5) ≤ 2 ^ 22) := by
  exact ⟨by unfold Quiet; decide +kernel,
    by unfold Quiet; decide +kernel,
    by unfold Ready; decide +kernel,
    by unfold Ready Quiet; decide +kernel⟩

def w91 : State := data [(1, full (spVa+1)), (2, full 0x1122334455667788), (3, full 6)]
def w92 : State := data [(1, full (0x80001)), (2, full 0x1122334455667788), (3, full 6)]
def w93 : State := data [(1, full (spVa+4)), (2, full 0x1122334455667788), (3, full 6)]
def w94 : State := data [(1, full (11 * 2^59 + spVa + 1)), (2, full 0x1122334455667788), (3, full 6)]
def w95 : State := data [(1, full (10 * 2^59 + spVa + 1)), (2, full 0x1122334455667788), (3, full 6)]
def w96 : State := data [(1, full (0xFF000000400000)), (2, full 0x1122334455667788), (3, full 6)]
def w97 : State := { data [(1, full (0x80000)), (2, full 0x1122334455667788), (3, full 6)] with clusters := [(0, { tlb := [(3 * 2 ^ 37 + 1, { pa := 0x80000, sv := true })] })] }
def w98 : State := { data [] with slots := [(0, { st := .active, hyp := 3, regs := [(1, full 0x100000), (2, full 5), (3, full 6)] })] }
def w99 : State := { data [] with slots := [(0, { st := .active, hyp := 3, regs := [(1, full 0x180000), (2, full 5), (3, full 6)] })] }
def w100 : State := data [(1, full (0x180000)), (2, full 0x1122334455667788), (3, full 6)]
def w101 : State := data [(1, full (spVa - 0x1008)), (2, full 0x1122334455667788), (3, full 6)]
def w102 : State := tiled { st := .open_ } [(1, full (spVa + 0x2000)), (2, full 5), (3, full 6)]
theorem wit_MemoryFaults :
    ((Ready w91 (Instr.ldH 3#5 1#5 0#1 0#3 0#2 0#8) [1#5] (if Acc3.read = Acc3.read then [3#5] else [])) ∧ Quiet w91 ∧ Handles w91 ∧ (w91.cur.reg (3#5).toNat).st ≠ RegState.pending ∧ (false = true → formatBad (w91.gr 1#5) true = false) ∧ spVa + 1 = ea w91 (1#5) (0#8) 2 ∧ (spVa + 1) % 2 ≠ 0) ∧
    ((Ready w91 (Instr.ldD 3#5 1#5 0#1 0#3 0#2 0#8) [1#5] (if Acc3.read = Acc3.read then [3#5] else [])) ∧ Quiet w91 ∧ Handles w91 ∧ (w91.cur.reg (3#5).toNat).st ≠ RegState.pending ∧ (false = true → formatBad (w91.gr 1#5) true = false) ∧ spVa + 1 = ea w91 (1#5) (0#8) 8 ∧ (spVa + 1) % 8 ≠ 0) ∧
    ((Ready w92 (Instr.stH 2#5 1#5 0#1 0#3 0#2 0#8) [1#5, 2#5] (if Acc3.write = Acc3.read then [2#5] else [])) ∧ Quiet w92 ∧ Handles w92 ∧ (w92.cur.reg (2#5).toNat).st ≠ RegState.pending ∧ (false = true → formatBad (w92.gr 1#5) true = false) ∧ 524289 = ea w92 (1#5) (0#8) 2 ∧ 524289 % 2 ≠ 0) ∧
    ((Ready w93 (Instr.amoSwap 2#5 1#5 0#1 0#3 0#2 0#8) [1#5, 2#5] (if Acc3.write = Acc3.read then [2#5] else [])) ∧ Quiet w93 ∧ Handles w93 ∧ (w93.cur.reg (2#5).toNat).st ≠ RegState.pending ∧ (false = true → formatBad (w93.gr 1#5) true = false) ∧ spVa + 4 = ea w93 (1#5) (0#8) 8 ∧ (spVa + 4) % 8 ≠ 0) ∧
    ((Ready w91 (Instr.amoFadd 2#5 1#5 0#1 0#3 0#2 0#8) [1#5, 2#5] (if Acc3.write = Acc3.read then [2#5] else [])) ∧ Quiet w91 ∧ Handles w91 ∧ (w91.cur.reg (2#5).toNat).st ≠ RegState.pending ∧ (false = true → formatBad (w91.gr 1#5) true = false) ∧ spVa + 1 = ea w91 (1#5) (0#8) 8 ∧ (spVa + 1) % 8 ≠ 0) ∧
    ((Ready w91 (Instr.amoAddBatch 2#5 1#5 0#1 0#3 0#2 0#8) [1#5, 2#5] (if Acc3.write = Acc3.read then [2#5] else [])) ∧ Quiet w91 ∧ Handles w91 ∧ (w91.cur.reg (2#5).toNat).st ≠ RegState.pending ∧ (false = true → formatBad (w91.gr 1#5) true = false) ∧ spVa + 1 = ea w91 (1#5) (0#8) 8 ∧ (spVa + 1) % 8 ≠ 0) ∧
    ((Ready w91 (Instr.cas 2#5 1#5 0#1 0#3 0#2 0#8) [1#5, 2#5, 2#5 + 1#5] (if Acc3.write = Acc3.read then [2#5] else [])) ∧ Quiet w91 ∧ Handles w91 ∧ (w91.cur.reg (2#5).toNat).st ≠ RegState.pending ∧ (false = true → formatBad (w91.gr 1#5) true = false) ∧ spVa + 1 = ea w91 (1#5) (0#8) 8 ∧ (spVa + 1) % 8 ≠ 0) ∧
    ((Ready w91 (Instr.notify 2#5 1#5 0#1 0#3 0#8) [1#5, 2#5] (if Acc3.write = Acc3.read then [2#5] else [])) ∧ Quiet w91 ∧ Handles w91 ∧ (w91.cur.reg (2#5).toNat).st ≠ RegState.pending ∧ (false = true → formatBad (w91.gr 1#5) true = false) ∧ spVa + 1 = ea w91 (1#5) (0#8) 8 ∧ (spVa + 1) % 8 ≠ 0) ∧
    ((Ready w91 (Instr.nwait 2#5 1#5 0#1 0#3 0#8) [1#5, 2#5] (if Acc3.read = Acc3.read then [2#5] else [])) ∧ Quiet w91 ∧ Handles w91 ∧ (w91.cur.reg (2#5).toNat).st ≠ RegState.pending ∧ (false = true → formatBad (w91.gr 1#5) true = false) ∧ spVa + 1 = ea w91 (1#5) (0#8) 8 ∧ (spVa + 1) % 8 ≠ 0) ∧
    ((Ready w94 (Instr.ldt 3#5 1#5 0#1 0#3 0#2 0#8) [1#5] (if Acc3.read = Acc3.read then [3#5] else [])) ∧ Quiet w94 ∧ Handles w94 ∧ (w94.cur.reg (3#5).toNat).st ≠ RegState.pending ∧ (true = true → formatBad (w94.gr 1#5) true = false) ∧ spVa + 1 = ea w94 (1#5) (0#8) (elemSize (BitVec.toNat (w94.gr 1#5) / 2 ^ 59)) ∧ (spVa + 1) % elemSize (BitVec.toNat (w94.gr 1#5) / 2 ^ 59) ≠ 0) ∧
    ((Ready w95 (Instr.stt 2#5 1#5 0#1 0#3 0#2 0#8) [1#5, 2#5] (if Acc3.write = Acc3.read then [2#5] else [])) ∧ Quiet w95 ∧ Handles w95 ∧ (w95.cur.reg (2#5).toNat).st ≠ RegState.pending ∧ (true = true → formatBad (w95.gr 1#5) true = false) ∧ spVa + 1 = ea w95 (1#5) (0#8) (elemSize (BitVec.toNat (w95.gr 1#5) / 2 ^ 59)) ∧ (spVa + 1) % elemSize (BitVec.toNat (w95.gr 1#5) / 2 ^ 59) ≠ 0) ∧
    ((Ready w96 (Instr.ldD 3#5 1#5 0#1 0#3 0#2 0#8) [1#5] (if Acc3.read = Acc3.read then [3#5] else [])) ∧ Quiet w96 ∧ Handles w96 ∧ (w96.cur.reg (3#5).toNat).st ≠ RegState.pending ∧ (false = true → formatBad (w96.gr 1#5) true = false) ∧ 71776119065411584 = ea w96 (1#5) (0#8) 8 ∧ 71776119065411584 % 8 = 0 ∧ windowOf 71776119065411584 = Window3.none) ∧
    ((Ready w96 (Instr.stD 2#5 1#5 0#1 0#3 0#2 0#8) [1#5, 2#5] (if Acc3.write = Acc3.read then [2#5] else [])) ∧ Quiet w96 ∧ Handles w96 ∧ (w96.cur.reg (2#5).toNat).st ≠ RegState.pending ∧ (false = true → formatBad (w96.gr 1#5) true = false) ∧ 71776119065411584 = ea w96 (1#5) (0#8) 8 ∧ 71776119065411584 % 8 = 0 ∧ windowOf 71776119065411584 = Window3.none) ∧
    ((Ready w96 (Instr.cas 2#5 1#5 0#1 0#3 0#2 0#8) [1#5, 2#5, 2#5 + 1#5] (if Acc3.write = Acc3.read then [2#5] else [])) ∧ Quiet w96 ∧ Handles w96 ∧ (w96.cur.reg (2#5).toNat).st ≠ RegState.pending ∧ (false = true → formatBad (w96.gr 1#5) true = false) ∧ 71776119065411584 = ea w96 (1#5) (0#8) 8 ∧ 71776119065411584 % 8 = 0 ∧ windowOf 71776119065411584 = Window3.none) ∧
    ((Ready w96 (Instr.nwait 2#5 1#5 0#1 0#3 0#8) [1#5, 2#5] (if Acc3.read = Acc3.read then [2#5] else [])) ∧ Quiet w96 ∧ Handles w96 ∧ (w96.cur.reg (2#5).toNat).st ≠ RegState.pending ∧ (false = true → formatBad (w96.gr 1#5) true = false) ∧ 71776119065411584 = ea w96 (1#5) (0#8) 8 ∧ 71776119065411584 % 8 = 0 ∧ windowOf 71776119065411584 = Window3.none) ∧
    ((Ready w97 (Instr.ldD 3#5 1#5 0#1 0#3 0#2 1#8) [1#5] (if Acc3.read = Acc3.read then [3#5] else [])) ∧ Quiet w97 ∧ Handles w97 ∧ (w97.cur.reg (3#5).toNat).st ≠ RegState.pending ∧ (false = true → formatBad (w97.gr 1#5) true = false) ∧ 524296 = ea w97 (1#5) (1#8) 8 ∧ 524296 % 8 = 0 ∧ windowOf 524296 = Window3.global ∧ w97.look (clusterOf w97.coreNo) w97.cur.ctx 524296 Acc3.read true false = Tr.fault 3) ∧
    ((Ready w97 (Instr.stW 2#5 1#5 0#1 0#3 0#2 1#8) [1#5, 2#5] (if Acc3.write = Acc3.read then [2#5] else [])) ∧ Quiet w97 ∧ Handles w97 ∧ (w97.cur.reg (2#5).toNat).st ≠ RegState.pending ∧ (false = true → formatBad (w97.gr 1#5) true = false) ∧ 524292 = ea w97 (1#5) (1#8) 4 ∧ 524292 % 4 = 0 ∧ windowOf 524292 = Window3.global ∧ w97.look (clusterOf w97.coreNo) w97.cur.ctx 524292 Acc3.write true false = Tr.fault 3) ∧
    ((Ready w97 (Instr.nwait 2#5 1#5 0#1 0#3 1#8) [1#5, 2#5] (if Acc3.read = Acc3.read then [2#5] else [])) ∧ Quiet w97 ∧ Handles w97 ∧ (w97.cur.reg (2#5).toNat).st ≠ RegState.pending ∧ (false = true → formatBad (w97.gr 1#5) true = false) ∧ 524296 = ea w97 (1#5) (1#8) 8 ∧ 524296 % 8 = 0 ∧ windowOf 524296 = Window3.global ∧ w97.look (clusterOf w97.coreNo) w97.cur.ctx 524296 Acc3.read true false = Tr.fault 3) ∧
    ((Ready w98 (Instr.stD 2#5 1#5 0#1 0#3 0#2 0#8) [1#5, 2#5] (if Acc3.write = Acc3.read then [2#5] else [])) ∧ Quiet w98 ∧ Handles w98 ∧ (w98.cur.reg (2#5).toNat).st ≠ RegState.pending ∧ (false = true → formatBad (w98.gr 1#5) true = false) ∧ 1048576 = ea w98 (1#5) (0#8) 8 ∧ 1048576 % 8 = 0 ∧ Acc3.write = Acc3.write ∧ w98.resolve w98.key 1048576 Acc3.write = Res.at_ (Tgt.host 1048576) ∧ w98.cur.hyp ≠ 0 ∧ ((∃ pa, Tgt.host 1048576 = Tgt.host pa) ∨ ∃ m pa, Tgt.host 1048576 = Tgt.remote m pa)) ∧
    ((Ready w99 (Instr.amoSwap 2#5 1#5 0#1 0#3 0#2 0#8) [1#5, 2#5] (if Acc3.write = Acc3.read then [2#5] else [])) ∧ Quiet w99 ∧ Handles w99 ∧ (w99.cur.reg (2#5).toNat).st ≠ RegState.pending ∧ (false = true → formatBad (w99.gr 1#5) true = false) ∧ 1572864 = ea w99 (1#5) (0#8) 8 ∧ 1572864 % 8 = 0 ∧ Acc3.write = Acc3.write ∧ w99.resolve w99.key 1572864 Acc3.write = Res.at_ (Tgt.remote 5 1572864) ∧ w99.cur.hyp ≠ 0 ∧ ((∃ pa, Tgt.remote 5 1572864 = Tgt.host pa) ∨ ∃ m pa, Tgt.remote 5 1572864 = Tgt.remote m pa)) ∧
    ((Ready w99 (Instr.cas 2#5 1#5 0#1 0#3 0#2 0#8) [1#5, 2#5, 2#5 + 1#5] (if Acc3.write = Acc3.read then [2#5] else [])) ∧ Quiet w99 ∧ Handles w99 ∧ (w99.cur.reg (2#5).toNat).st ≠ RegState.pending ∧ (false = true → formatBad (w99.gr 1#5) true = false) ∧ 1572864 = ea w99 (1#5) (0#8) 8 ∧ 1572864 % 8 = 0 ∧ Acc3.write = Acc3.write ∧ w99.resolve w99.key 1572864 Acc3.write = Res.at_ (Tgt.remote 5 1572864) ∧ w99.cur.hyp ≠ 0 ∧ ((∃ pa, Tgt.remote 5 1572864 = Tgt.host pa) ∨ ∃ m pa, Tgt.remote 5 1572864 = Tgt.remote m pa)) ∧
    ((Ready w98 (Instr.notify 2#5 1#5 0#1 0#3 0#8) [1#5, 2#5] (if Acc3.write = Acc3.read then [2#5] else [])) ∧ Quiet w98 ∧ Handles w98 ∧ (w98.cur.reg (2#5).toNat).st ≠ RegState.pending ∧ (false = true → formatBad (w98.gr 1#5) true = false) ∧ 1048576 = ea w98 (1#5) (0#8) 8 ∧ 1048576 % 8 = 0 ∧ Acc3.write = Acc3.write ∧ w98.resolve w98.key 1048576 Acc3.write = Res.at_ (Tgt.host 1048576) ∧ w98.cur.hyp ≠ 0 ∧ ((∃ pa, Tgt.host 1048576 = Tgt.host pa) ∨ ∃ m pa, Tgt.host 1048576 = Tgt.remote m pa)) ∧
    ((Ready w99 (Instr.amoAddBatch 2#5 1#5 0#1 0#3 0#2 0#8) [1#5, 2#5] (if Acc3.write = Acc3.read then [2#5] else [])) ∧ Quiet w99 ∧ Handles w99 ∧ (w99.cur.reg (2#5).toNat).st ≠ RegState.pending ∧ (false = true → formatBad (w99.gr 1#5) true = false) ∧ 1572864 = ea w99 (1#5) (0#8) 8 ∧ 1572864 % 8 = 0 ∧ Acc3.write = Acc3.write ∧ w99.resolve w99.key 1572864 Acc3.write = Res.at_ (Tgt.remote 5 1572864) ∧ w99.cur.hyp ≠ 0 ∧ ((∃ pa, Tgt.remote 5 1572864 = Tgt.host pa) ∨ ∃ m pa, Tgt.remote 5 1572864 = Tgt.remote m pa)) ∧
    ((Ready w100 (Instr.amoMin 2#5 1#5 0#1 0#3 0#2 0#8) [1#5, 2#5] (if Acc3.write = Acc3.read then [2#5] else [])) ∧ Quiet w100 ∧ Handles w100 ∧ (w100.cur.reg (2#5).toNat).st ≠ RegState.pending ∧ (false = true → formatBad (w100.gr 1#5) true = false) ∧ 1572864 = ea w100 (1#5) (0#8) 8 ∧ 1572864 % 8 = 0 ∧ Acc3.write = Acc3.write ∧ w100.resolve w100.key 1572864 Acc3.write = Res.at_ (Tgt.remote 5 1572864) ∧ w100.cur.hyp = 0 ∧ (∃ op ∈ noSubOps, Instr.amoMin 2#5 1#5 0#1 0#3 0#2 0#8 = op 2#5 1#5 0#1 0#3 0#2 0#8) ∧ (∃ m pa, Tgt.remote 5 1572864 = Tgt.remote m pa)) ∧
    ((Ready w100 (Instr.amoMaxz 2#5 1#5 0#1 0#3 0#2 0#8) [1#5, 2#5] (if Acc3.write = Acc3.read then [2#5] else [])) ∧ Quiet w100 ∧ Handles w100 ∧ (w100.cur.reg (2#5).toNat).st ≠ RegState.pending ∧ (false = true → formatBad (w100.gr 1#5) true = false) ∧ 1572864 = ea w100 (1#5) (0#8) 8 ∧ 1572864 % 8 = 0 ∧ Acc3.write = Acc3.write ∧ w100.resolve w100.key 1572864 Acc3.write = Res.at_ (Tgt.remote 5 1572864) ∧ w100.cur.hyp = 0 ∧ (∃ op ∈ noSubOps, Instr.amoMaxz 2#5 1#5 0#1 0#3 0#2 0#8 = op 2#5 1#5 0#1 0#3 0#2 0#8) ∧ (∃ m pa, Tgt.remote 5 1572864 = Tgt.remote m pa)) ∧
    ((Ready w101 (Instr.stB 2#5 1#5 0#1 0#3 0#2 0#8) [1#5, 2#5] (if Acc3.write = Acc3.read then [2#5] else [])) ∧ Quiet w101 ∧ Handles w101 ∧ (w101.cur.reg (2#5).toNat).st ≠ RegState.pending ∧ (false = true → formatBad (w101.gr 1#5) true = false) ∧ spVa - 4104 = ea w101 (1#5) (0#8) 1 ∧ (spVa - 4104) % 1 = 0 ∧ Acc3.write = Acc3.write ∧ w101.resolve w101.key (spVa - 4104) Acc3.write = Res.at_ (Tgt.sp 20472) ∧ Tgt.sp 20472 = Tgt.sp 20472 ∧ 20472 % 2 ^ 22 < 20480) ∧
    ((Ready w101 (Instr.stD 2#5 1#5 0#1 0#3 0#2 0#8) [1#5, 2#5] (if Acc3.write = Acc3.read then [2#5] else [])) ∧ Quiet w101 ∧ Handles w101 ∧ (w101.cur.reg (2#5).toNat).st ≠ RegState.pending ∧ (false = true → formatBad (w101.gr 1#5) true = false) ∧ spVa - 4104 = ea w101 (1#5) (0#8) 8 ∧ (spVa - 4104) % 8 = 0 ∧ Acc3.write = Acc3.write ∧ w101.resolve w101.key (spVa - 4104) Acc3.write = Res.at_ (Tgt.sp 20472) ∧ Tgt.sp 20472 = Tgt.sp 20472 ∧ 20472 % 2 ^ 22 < 20480) ∧
    ((Ready w101 (Instr.amoAdd 2#5 1#5 0#1 0#3 0#2 0#8) [1#5, 2#5] (if Acc3.write = Acc3.read then [2#5] else [])) ∧ Quiet w101 ∧ Handles w101 ∧ (w101.cur.reg (2#5).toNat).st ≠ RegState.pending ∧ (false = true → formatBad (w101.gr 1#5) true = false) ∧ spVa - 4104 = ea w101 (1#5) (0#8) 8 ∧ (spVa - 4104) % 8 = 0 ∧ Acc3.write = Acc3.write ∧ w101.resolve w101.key (spVa - 4104) Acc3.write = Res.at_ (Tgt.sp 20472) ∧ Tgt.sp 20472 = Tgt.sp 20472 ∧ 20472 % 2 ^ 22 < 20480) ∧
    ((Ready w101 (Instr.notify 2#5 1#5 0#1 0#3 0#8) [1#5, 2#5] (if Acc3.write = Acc3.read then [2#5] else [])) ∧ Quiet w101 ∧ Handles w101 ∧ (w101.cur.reg (2#5).toNat).st ≠ RegState.pending ∧ (false = true → formatBad (w101.gr 1#5) true = false) ∧ spVa - 4104 = ea w101 (1#5) (0#8) 8 ∧ (spVa - 4104) % 8 = 0 ∧ Acc3.write = Acc3.write ∧ w101.resolve w101.key (spVa - 4104) Acc3.write = Res.at_ (Tgt.sp 20472) ∧ Tgt.sp 20472 = Tgt.sp 20472 ∧ 20472 % 2 ^ 22 < 20480) ∧
    ((Ready w102 (Instr.stB 2#5 1#5 0#1 0#3 0#2 0#8) [1#5, 2#5] (if Acc3.write = Acc3.read then [2#5] else [])) ∧ Quiet w102 ∧ Handles w102 ∧ (w102.cur.reg (2#5).toNat).st ≠ RegState.pending ∧ (false = true → formatBad (w102.gr 1#5) true = false) ∧ spVa + 8192 = ea w102 (1#5) (0#8) 1 ∧ (spVa + 8192) % 1 = 0 ∧ Acc3.write = Acc3.write ∧ w102.resolve w102.key (spVa + 8192) Acc3.write = Res.at_ (Tgt.sp 32768) ∧ Tgt.sp 32768 = Tgt.sp 32768 ∧ 20480 ≤ 32768 % 2 ^ 22 ∧ w102.tileOwned 32768 1 = true) ∧
    ((Ready w102 (Instr.stD 2#5 1#5 0#1 0#3 0#2 0#8) [1#5, 2#5] (if Acc3.write = Acc3.read then [2#5] else [])) ∧ Quiet w102 ∧ Handles w102 ∧ (w102.cur.reg (2#5).toNat).st ≠ RegState.pending ∧ (false = true → formatBad (w102.gr 1#5) true = false) ∧ spVa + 8192 = ea w102 (1#5) (0#8) 8 ∧ (spVa + 8192) % 8 = 0 ∧ Acc3.write = Acc3.write ∧ w102.resolve w102.key (spVa + 8192) Acc3.write = Res.at_ (Tgt.sp 32768) ∧ Tgt.sp 32768 = Tgt.sp 32768 ∧ 20480 ≤ 32768 % 2 ^ 22 ∧ w102.tileOwned 32768 8 = true) ∧
    ((Ready w102 (Instr.amoAdd 2#5 1#5 0#1 0#3 0#2 0#8) [1#5, 2#5] (if Acc3.write = Acc3.read then [2#5] else [])) ∧ Quiet w102 ∧ Handles w102 ∧ (w102.cur.reg (2#5).toNat).st ≠ RegState.pending ∧ (false = true → formatBad (w102.gr 1#5) true = false) ∧ spVa + 8192 = ea w102 (1#5) (0#8) 8 ∧ (spVa + 8192) % 8 = 0 ∧ Acc3.write = Acc3.write ∧ w102.resolve w102.key (spVa + 8192) Acc3.write = Res.at_ (Tgt.sp 32768) ∧ Tgt.sp 32768 = Tgt.sp 32768 ∧ 20480 ≤ 32768 % 2 ^ 22 ∧ w102.tileOwned 32768 8 = true) ∧
    ((Ready w102 (Instr.cas 2#5 1#5 0#1 0#3 0#2 0#8) [1#5, 2#5, 2#5 + 1#5] (if Acc3.write = Acc3.read then [2#5] else [])) ∧ Quiet w102 ∧ Handles w102 ∧ (w102.cur.reg (2#5).toNat).st ≠ RegState.pending ∧ (false = true → formatBad (w102.gr 1#5) true = false) ∧ spVa + 8192 = ea w102 (1#5) (0#8) 8 ∧ (spVa + 8192) % 8 = 0 ∧ Acc3.write = Acc3.write ∧ w102.resolve w102.key (spVa + 8192) Acc3.write = Res.at_ (Tgt.sp 32768) ∧ Tgt.sp 32768 = Tgt.sp 32768 ∧ 20480 ≤ 32768 % 2 ^ 22 ∧ w102.tileOwned 32768 8 = true) ∧
    ((Ready w102 (Instr.notify 2#5 1#5 0#1 0#3 0#8) [1#5, 2#5] (if Acc3.write = Acc3.read then [2#5] else [])) ∧ Quiet w102 ∧ Handles w102 ∧ (w102.cur.reg (2#5).toNat).st ≠ RegState.pending ∧ (false = true → formatBad (w102.gr 1#5) true = false) ∧ spVa + 8192 = ea w102 (1#5) (0#8) 8 ∧ (spVa + 8192) % 8 = 0 ∧ Acc3.write = Acc3.write ∧ w102.resolve w102.key (spVa + 8192) Acc3.write = Res.at_ (Tgt.sp 32768) ∧ Tgt.sp 32768 = Tgt.sp 32768 ∧ 20480 ≤ 32768 % 2 ^ 22 ∧ w102.tileOwned 32768 8 = true) := by
  constructorm* _ ∧ _ <;> first
    | decide +kernel
    | (and_intros <;> first | decide +kernel | simp)
    | (unfold Handles; decide +kernel)
    | (unfold Quiet; decide +kernel)
    | (unfold Ready; decide +kernel)

def w103 : State := regs [(1, full (9 + 5 * 2^16 + 3 * 2^32)), (2, full 77)]
def w115 : State := crowded (eight [(8, full 0x4000)])
def w116 : State := { crowded (eight [(8, full 0x4000)]) with cores := [(0, { inbox := [{}] })] }
def w117 : State := { one { tid := 9 } with ctxs := [(0, { st := .running, saveb := 1, tids := [9] })] }
def w118 : State := one { tid := 9, fills := [{ reg := 3 }] }
theorem wit_ThreadInstructions :
    (((regs [(3, full 1)]).cur.reg (3#5).toNat).st ≠ RegState.pending) ∧
    (Ready (regs [(1, full 1)]) (Instr.setmig 1#5 0#1) [1#5] [] ∧ BitVec.toNat ((regs [(1, full 1)]).gr 1#5) < 2) ∧
    (Ready (regs [(1, full 2)]) (Instr.setmig 1#5 0#1) [1#5] [] ∧ 2 ≤ BitVec.toNat ((regs [(1, full 2)]).gr 1#5) ∧ Handles (regs [(1, full 2)])) ∧
    (Ready w103 (Instr.rfill 1#5 2#5 0#1 0#1) [1#5, 2#5] [] ∧ Quiet w103 ∧ BitVec.extractLsb' 37 27 (w103.gr 1#5) = 0#27 ∧ BitVec.extractLsb' 28 4 (w103.gr 1#5) = 0#4 ∧ w103.fenced ((BitVec.extractLsb' 16 12 (w103.gr 1#5)).toNat / 16) = false) ∧
    (Ready (regs [(1, full 524544)]) (Instr.mhome 3#5 1#5 0#1) [1#5] [3#5] ∧ (regs [(1, full 524544)]).resolve (regs [(1, full 524544)]).key (BitVec.toNat ((regs [(1, full 524544)]).gr 1#5) % 2 ^ 56) Acc3.read = Res.at_ (Tgt.hbm 524544)) ∧
    (Ready w115 (Instr.spawn 9#5 8#5 0#1) [8#5] [9#5] ∧ lowFull w115 8 ∧ Quiet w115 ∧ BitVec.toNat (w115.gr 8#5) % 4 = 0 ∧ w115.spawnRoom = some (3, 0) ∧ 3 ≠ w115.key) ∧
    (Ready w116 (Instr.spawn 9#5 8#5 0#1) [8#5] [9#5] ∧ lowFull w116 8 ∧ Quiet w116 ∧ BitVec.toNat (w116.gr 8#5) % 4 = 0 ∧ w116.spawnRoom = none) ∧
    (w117.cur.fills = []) ∧
    (w118.cur.fills ≠ []) := by
  constructorm* _ ∧ _ <;> first
    | decide +kernel
    | (unfold Handles; decide +kernel)
    | (unfold Quiet; decide +kernel)
    | (unfold Ready; decide +kernel)
    | (unfold lowFull; decide +kernel)

def w104 : State := eight [(8, full (17 * 2^52 + 0x4000))]
def w105 : State := { eight [(8, full (17 * 2^52 + 0x4000))] with mgmt := { fences := 2 } }
def w106 : State := eight [(8, full (17 * 2^52 + 0x4001))]
def w107 : State := eight [(8, full 4095)] { tid := 7 }
def w108 : State := { eight [(8, full 4095)] { tid := 7, launch := some 64 } with launches := [(64, { ctx := 0, q := 0, seq := 1, r := head0, st := .launched })], cores := [(0, { winOwner := some 64 })] }
def w109 : State := eight [(8, full 0x80080)] { tid := 7, mig := true }
def w110 : ℕ := homeSlice 0x80080 / 512 * 1024 + homeSlice 0x80080 % 512 / 8 * 16 + homeSlice 0x80080 % 8 * 2 + 0x80080 / 128 % 2
def w111 : State := eight [(8, full spVa)] { tid := 7, mig := true }
def w112 : State := { eight [(8, full 17)] { tid := 7 } with mgmt := { fences := 2 } }
def w113 : State := eight [(8, full 4096)] { tid := 7 }
def w114 : State := eight [(8, full 17)] { tid := 7, hnd := true }
theorem wit_SendAndMigrate :
    ((w104.cur.reg (8#5).toNat).st = RegState.full ∧ lowFull w104 8 ∧ Quiet w104 ∧ 17 = (BitVec.extractLsb' 52 12 (w104.gr 8#5)).toNat ∧ w104.fenced (17 / 16) = false ∧ BitVec.toNat (w104.gr 8#5) % 4 = 0 ∧ w104.noRoom 17 w104.cur.ctx = false) ∧
    ((w105.cur.reg (8#5).toNat).st = RegState.full ∧ lowFull w105 8 ∧ Quiet w105 ∧ 17 = (BitVec.extractLsb' 52 12 (w105.gr 8#5)).toNat ∧ w105.fenced (17 / 16) = true ∧ Handles w105) ∧
    ((w106.cur.reg (8#5).toNat).st = RegState.full ∧ lowFull w106 8 ∧ Quiet w106 ∧ 17 = (BitVec.extractLsb' 52 12 (w106.gr 8#5)).toNat ∧ w106.fenced (17 / 16) = false ∧ BitVec.toNat (w106.gr 8#5) % 4 ≠ 0 ∧ Handles w106) ∧
    ((w107.cur.reg (8#5).toNat).st = RegState.full ∧ lowFull w107 8 ∧ Quiet w107 ∧ w107.ctl.at_.slot < 16 ∧ (w107.cur.mig = false ∧ 4095 = BitVec.toNat (w107.gr 8#5) ∧ 4095 < 4096 ∨ w107.cur.mig = true ∧ w107.resolve w107.key (BitVec.toNat (w107.gr 8#5) % 2 ^ 56) Acc3.read = Res.at_ (Tgt.hbm 0) ∧ 4095 = homeSlice 0 / 512 * 1024 + homeSlice 0 % 512 / 8 * 16 + homeSlice 0 % 8 * 2 + 0 / 128 % 2 ∨ w107.cur.mig = true ∧ windowOf (BitVec.toNat (w107.gr 8#5) % 2 ^ 56) = Window3.scratch 0 ∧ 4095 = w107.coreNo) ∧ w107.cur.hnd = false ∧ w107.fenced (4095 / 16) = false ∧ w107.noRoom 4095 w107.cur.ctx = false) ∧
    ((w108.cur.reg (8#5).toNat).st = RegState.full ∧ lowFull w108 8 ∧ Quiet w108 ∧ w108.ctl.at_.slot < 16 ∧ (w108.cur.mig = false ∧ 4095 = BitVec.toNat (w108.gr 8#5) ∧ 4095 < 4096 ∨ w108.cur.mig = true ∧ w108.resolve w108.key (BitVec.toNat (w108.gr 8#5) % 2 ^ 56) Acc3.read = Res.at_ (Tgt.hbm 0) ∧ 4095 = homeSlice 0 / 512 * 1024 + homeSlice 0 % 512 / 8 * 16 + homeSlice 0 % 8 * 2 + 0 / 128 % 2 ∨ w108.cur.mig = true ∧ windowOf (BitVec.toNat (w108.gr 8#5) % 2 ^ 56) = Window3.scratch 0 ∧ 4095 = w108.coreNo) ∧ w108.cur.hnd = false ∧ w108.fenced (4095 / 16) = false ∧ w108.noRoom 4095 w108.cur.ctx = false) ∧
    ((w109.cur.reg (8#5).toNat).st = RegState.full ∧ lowFull w109 8 ∧ Quiet w109 ∧ w109.ctl.at_.slot < 16 ∧ (w109.cur.mig = false ∧ w110 = BitVec.toNat (w109.gr 8#5) ∧ w110 < 4096 ∨ w109.cur.mig = true ∧ w109.resolve w109.key (BitVec.toNat (w109.gr 8#5) % 2 ^ 56) Acc3.read = Res.at_ (Tgt.hbm 524416) ∧ w110 = homeSlice 524416 / 512 * 1024 + homeSlice 524416 % 512 / 8 * 16 + homeSlice 524416 % 8 * 2 + 524416 / 128 % 2 ∨ w109.cur.mig = true ∧ windowOf (BitVec.toNat (w109.gr 8#5) % 2 ^ 56) = Window3.scratch 524416 ∧ w110 = w109.coreNo) ∧ w109.cur.hnd = false ∧ w109.fenced (w110 / 16) = false ∧ w109.noRoom w110 w109.cur.ctx = false) ∧
    ((w111.cur.reg (8#5).toNat).st = RegState.full ∧ lowFull w111 8 ∧ Quiet w111 ∧ w111.ctl.at_.slot < 16 ∧ (w111.cur.mig = false ∧ 0 = BitVec.toNat (w111.gr 8#5) ∧ 0 < 4096 ∨ w111.cur.mig = true ∧ w111.resolve w111.key (BitVec.toNat (w111.gr 8#5) % 2 ^ 56) Acc3.read = Res.at_ (Tgt.hbm 24576) ∧ 0 = homeSlice 24576 / 512 * 1024 + homeSlice 24576 % 512 / 8 * 16 + homeSlice 24576 % 8 * 2 + 24576 / 128 % 2 ∨ w111.cur.mig = true ∧ windowOf (BitVec.toNat (w111.gr 8#5) % 2 ^ 56) = Window3.scratch 24576 ∧ 0 = w111.coreNo) ∧ w111.cur.hnd = false ∧ w111.fenced (0 / 16) = false ∧ w111.noRoom 0 w111.cur.ctx = false) ∧
    ((w112.cur.reg (8#5).toNat).st = RegState.full ∧ lowFull w112 8 ∧ Quiet w112 ∧ w112.ctl.at_.slot < 16 ∧ (w112.cur.mig = false ∧ 17 = BitVec.toNat (w112.gr 8#5) ∧ 17 < 4096 ∨ w112.cur.mig = true ∧ w112.resolve w112.key (BitVec.toNat (w112.gr 8#5) % 2 ^ 56) Acc3.read = Res.at_ (Tgt.hbm 0) ∧ 17 = homeSlice 0 / 512 * 1024 + homeSlice 0 % 512 / 8 * 16 + homeSlice 0 % 8 * 2 + 0 / 128 % 2 ∨ w112.cur.mig = true ∧ windowOf (BitVec.toNat (w112.gr 8#5) % 2 ^ 56) = Window3.scratch 0 ∧ 17 = w112.coreNo) ∧ w112.fenced (17 / 16) = true ∧ Handles w112) ∧
    ((w113.cur.reg (8#5).toNat).st = RegState.full ∧ lowFull w113 8 ∧ w113.cur.mig = false ∧ 4096 ≤ BitVec.toNat (w113.gr 8#5) ∧ Handles w113) ∧
    ((w114.cur.reg (8#5).toNat).st = RegState.full ∧ lowFull w114 8 ∧ Quiet w114 ∧ w114.ctl.at_.slot < 16 ∧ (w114.cur.mig = false ∧ 17 = BitVec.toNat (w114.gr 8#5) ∧ 17 < 4096 ∨ w114.cur.mig = true ∧ w114.resolve w114.key (BitVec.toNat (w114.gr 8#5) % 2 ^ 56) Acc3.read = Res.at_ (Tgt.hbm 0) ∧ 17 = homeSlice 0 / 512 * 1024 + homeSlice 0 % 512 / 8 * 16 + homeSlice 0 % 8 * 2 + 0 / 128 % 2 ∨ w114.cur.mig = true ∧ windowOf (BitVec.toNat (w114.gr 8#5) % 2 ^ 56) = Window3.scratch 0 ∧ 17 = w114.coreNo) ∧ w114.cur.hnd = true ∧ w114.coreNo = (w114.ctx w114.cur.ctx).trapc ∧ (w114.ctx w114.cur.ctx).st = CtxSt.running) := by
  constructorm* _ ∧ _ <;> first
    | decide +kernel
    | (unfold Handles; decide +kernel)
    | (unfold Quiet; decide +kernel)
    | (unfold lowFull; decide +kernel)

def w119 : State := { eight [(8, full 0x4000)] { launch := some 64 } with cores := [(0, { winOwner := some 64 })] }
def w120 : State := { eight [(8, full 0x4000)] { launch := some 64 } with cores := [(0, { winOwner := some 64, deque := List.replicate 128 { launch := 64, task := .range 0 1 } })] }
def w121 : State := { eight [(8, full 0x4000)] { launch := some 64, hyp := 2 } with cores := [(0, { winOwner := some 64, deque := [{ launch := 64, task := .task 2 0x4000 [1,2,3,4,5,6,7] }] })] }
def w122 : State := { eight [(8, full 0x4000)] { launch := some 64, hyp := 2 } with cores := [(0, { winOwner := some 64 })] }
def w123 : State := { eight [(8, full 0x4000)] { launch := some 64, hyp := 2 } with cores := [(0, { winOwner := some 64, deque := [{ launch := 64, task := .range 3 4 }] })] }
def w124 : State := { eight [(8, full 0x4000)] { launch := some 64, hyp := 2 } with cores := [(0, { winOwner := some 64, deque := [{ launch := 64, task := .task 0 0x4000 [1,2,3,4,5,6,7] }] })] }
theorem wit_Tasks :
    (Ready w119 (Instr.dqpush 9#5 8#5 0#1) [8#5] [9#5] ∧ lowFull w119 7 ∧ Quiet w119 ∧ BitVec.toNat (w119.gr 8#5) % 4 = 0 ∧ w119.ownsWindow = true ∧ (w119.core w119.coreNo).deque.length < 128) ∧
    (Ready w120 (Instr.dqpush 9#5 8#5 0#1) [8#5] [9#5] ∧ lowFull w120 7 ∧ Quiet w120 ∧ BitVec.toNat (w120.gr 8#5) % 4 = 0 ∧ w120.ownsWindow = true ∧ 128 ≤ (w120.core w120.coreNo).deque.length) ∧
    (Ready (eight [(8, full 16384)]) (Instr.dqpush 9#5 8#5 0#1) [8#5] [9#5] ∧ lowFull (eight [(8, full 16384)]) 7 ∧ Quiet (eight [(8, full 16384)]) ∧ BitVec.toNat ((eight [(8, full 16384)]).gr 8#5) % 4 = 0 ∧ (eight [(8, full 16384)]).ownsWindow = false ∧ Handles (eight [(8, full 16384)])) ∧
    (wellFormed (Instr.dqpop 9#5) = true ∧ (w121.cur.reg (9#5).toNat).st ≠ RegState.pending ∧ (∀ r < 7, (w121.cur.reg r).st ≠ RegState.pending) ∧ w121.ownsWindow = true ∧ [1, 2, 3, 4, 5, 6, 7].length = 7 ∧ (w121.core w121.coreNo).deque = [{ launch := 64, task := Task.task w121.cur.hyp 16384 [1, 2, 3, 4, 5, 6, 7] }]) ∧
    (wellFormed (Instr.dqpop 9#5) = true ∧ (w122.cur.reg (9#5).toNat).st ≠ RegState.pending ∧ (∀ r < 7, (w122.cur.reg r).st ≠ RegState.pending) ∧ w122.ownsWindow = true ∧ (w122.core w122.coreNo).deque = []) ∧
    (wellFormed (Instr.dqpop 9#5) = true ∧ (w123.cur.reg (9#5).toNat).st ≠ RegState.pending ∧ (∀ r < 7, (w123.cur.reg r).st ≠ RegState.pending) ∧ w123.ownsWindow = true ∧ (w123.core w123.coreNo).deque = [{ launch := 64, task := Task.range 3 4 }]) ∧
    (wellFormed (Instr.dqpop 9#5) = true ∧ (w124.cur.reg (9#5).toNat).st ≠ RegState.pending ∧ (∀ r < 7, (w124.cur.reg r).st ≠ RegState.pending) ∧ w124.ownsWindow = true ∧ (w124.core w124.coreNo).deque = [{ launch := 64, task := Task.task 0 16384 [1, 2, 3, 4, 5, 6, 7] }] ∧ 0 ≠ w124.cur.hyp) ∧
    (wellFormed (Instr.dqpop 9#5) = true ∧ ((eight [(8, full 16384)]).cur.reg (9#5).toNat).st ≠ RegState.pending ∧ (∀ r < 7, ((eight [(8, full 16384)]).cur.reg r).st ≠ RegState.pending) ∧ (eight [(8, full 16384)]).ownsWindow = false ∧ Handles (eight [(8, full 16384)])) := by
  constructorm* _ ∧ _ <;> first
    | decide +kernel
    | (unfold Handles; decide +kernel)
    | (unfold Quiet; decide +kernel)
    | (unfold Ready; decide +kernel)
    | (unfold lowFull; decide +kernel)

def w125 : State := regs [(1, full 0x81000), (2, full 15)]
def w126 : State := regs [(1, full 0x81000), (2, full 16)]
def w127 : State := { regs [(1, full 0x81000), (2, full 3)] with ctxs := [(0, { st := .running, saveb := 1, queues := [(3, { entries := List.replicate 64 { rec_ := 0, stamp := 0 } })] })] }
def w128 : State := { regs [(1, full 0x81000), (2, full 3)] with ctxs := [(0, { st := .running, saveb := 1, queues := [(3, { entries := [{ rec_ := 0, stamp := 0 }], parked := [(7, 0x80000)] })] })] }
def w129 : State := regs [(1, full 0x81020), (2, full 15)]
def w130 : State := regs [(1, full (2^56)), (2, full 15)]
def w131 : State := one { hyp := 1, regs := [(1, full 0x81000), (2, full 1)] }
theorem wit_LaunchInstruction :
    (Ready w125 (Instr.launch 1#5 2#5 0#1 0#1) [1#5, 2#5] [] ∧ Quiet w125 ∧ BitVec.toNat (w125.gr 2#5) ≤ 15 ∧ w125.cur.hyp = 0 ∧ BitVec.toNat (w125.gr 1#5) % 64 = 0 ∧ BitVec.toNat (w125.gr 1#5) < 2 ^ 56 ∧ ((w125.ctx w125.cur.ctx).queues.get (BitVec.toNat (w125.gr 2#5)) { }).entries.length < 64 ∧ ((w125.ctx w125.cur.ctx).queues.get (BitVec.toNat (w125.gr 2#5)) { }).parked = []) ∧
    (Ready w126 (Instr.launch 1#5 2#5 0#1 0#1) [1#5, 2#5] [] ∧ Quiet w126 ∧ (15 < BitVec.toNat (w126.gr 2#5) ∨ w126.cur.hyp ≠ 0) ∧ Handles w126) ∧
    (Ready w127 (Instr.launch 1#5 2#5 0#1 0#1) [1#5, 2#5] [] ∧ Quiet w127 ∧ BitVec.toNat (w127.gr 2#5) ≤ 15 ∧ w127.cur.hyp = 0 ∧ BitVec.toNat (w127.gr 1#5) % 64 = 0 ∧ BitVec.toNat (w127.gr 1#5) < 2 ^ 56 ∧ (64 ≤ ((w127.ctx w127.cur.ctx).queues.get (BitVec.toNat (w127.gr 2#5)) { }).entries.length ∨ ((w127.ctx w127.cur.ctx).queues.get (BitVec.toNat (w127.gr 2#5)) { }).parked ≠ [])) ∧
    (Ready w128 (Instr.launch 1#5 2#5 0#1 0#1) [1#5, 2#5] [] ∧ Quiet w128 ∧ BitVec.toNat (w128.gr 2#5) ≤ 15 ∧ w128.cur.hyp = 0 ∧ BitVec.toNat (w128.gr 1#5) % 64 = 0 ∧ BitVec.toNat (w128.gr 1#5) < 2 ^ 56 ∧ (64 ≤ ((w128.ctx w128.cur.ctx).queues.get (BitVec.toNat (w128.gr 2#5)) { }).entries.length ∨ ((w128.ctx w128.cur.ctx).queues.get (BitVec.toNat (w128.gr 2#5)) { }).parked ≠ [])) ∧
    (Ready w129 (Instr.launch 1#5 2#5 0#1 0#1) [1#5, 2#5] [] ∧ Quiet w129 ∧ BitVec.toNat (w129.gr 2#5) ≤ 15 ∧ w129.cur.hyp = 0 ∧ (BitVec.toNat (w129.gr 1#5) % 64 ≠ 0 ∨ 2 ^ 56 ≤ BitVec.toNat (w129.gr 1#5)) ∧ Handles w129) ∧
    (Ready w130 (Instr.launch 1#5 2#5 0#1 0#1) [1#5, 2#5] [] ∧ Quiet w130 ∧ BitVec.toNat (w130.gr 2#5) ≤ 15 ∧ w130.cur.hyp = 0 ∧ (BitVec.toNat (w130.gr 1#5) % 64 ≠ 0 ∨ 2 ^ 56 ≤ BitVec.toNat (w130.gr 1#5)) ∧ Handles w130) ∧
    (Ready w131 (Instr.launch 1#5 2#5 0#1 0#1) [1#5, 2#5] [] ∧ Quiet w131 ∧ (15 < BitVec.toNat (w131.gr 2#5) ∨ w131.cur.hyp ≠ 0) ∧ Handles w131) := by
  constructorm* _ ∧ _ <;> first
    | decide +kernel
    | (unfold Handles; decide +kernel)
    | (unfold Quiet; decide +kernel)
    | (unfold Ready; decide +kernel)

def w132 : State := { data [(1, full spVa), (2, full (64 * 2^27 + 2^25 + 0x1000000))] with sp := leBytes 16 (0x80 * 2^64 + 10 * 2^59 + 2^52 + 64 * 2^40 + 64 * 2^30 + 0x8000) |> (fun bs => ((List.range 16).zip bs).map (fun p => (0x6000 + p.1, p.2))) |>.filter (fun p => p.2 != 0) |> (· ++ [(0x8000, 9), (0xA000, 7)]), lathes := [(1, { bound := some 64 })] }
def w133 : ℕ := 10 * 2^59 + 2^52 + 64 * 2^40 + 64 * 2^30 + 0x8000
theorem wit_OpenTile :
    Ready w132 (Instr.topen 3#5 1#5 2#5 0#1 0#1) [1#5, 2#5] [3#5] ∧ Quiet w132 ∧ BitVec.toNat (w132.gr 1#5) % 16 = 0 ∧ w132.resolve w132.key (BitVec.toNat (w132.gr 1#5) % 2 ^ 56) Acc3.read = Res.at_ (Tgt.sp 24576) ∧ w132.spPoisoned 24576 16 = false ∧ leNat (w132.spBytes 24576 16) = 128 * 2 ^ 64 + w133 ∧ w133 < 2 ^ 64 ∧ w132.openTrap (w132.coreNo / 16) w132.cur.ctx (BitVec.toNat (w132.gr 2#5)) w133 128 = none ∧ w132.freeIndex (w132.coreNo / 16) = some 0 := by
  unfold Ready Quiet
  decide +kernel

def w134 : State := tiled { st := .open_ } [(1, full 0x8500), (2, pos 63 126 1), (3, full 0x1234)]
def w135 : State := tiled { st := .open_ } [(1, full 0x8500), (2, pos 63 120 3), (3, full 0x123456789ABCDEF)]
def w136 : State := tiled { st := .open_ } [(1, full 0x8500), (2, pos 64 120 3), (3, full 0x123456789ABCDEF)]
def w137 : State := tiled { st := .queued } [(1, full 0x8500), (2, pos 63 120 3), (3, full 5)]
def w138 : State := tiled { st := .open_, valid := 2^63 } [(1, full 0x8500), (2, pos 63 120 3), (3, full 5)]
def w139 : State := tiled { st := .open_, valid := 2^63 } [(1, full 0x8500), (2, pos 63 128 3), (3, full 5)]
def w140 : State := tiled { st := .open_ } [(1, full 0x8500), (2, pos 0 0 0), (3, full 0x123456789ABCDEF)]
def w141 : State := tiled { st := .open_ } [(1, full 0x8500), (2, pos 127 0 0), (3, full 0x123456789ABCDEF)]
def w142 : State := tiled { st := .held } [(1, full 0x8500), (2, pos 63 120 3), (3, full 5)]
def w143 : State := tiled { st := .open_ } [(1, full 0x8400), (2, pos 63 120 3), (3, full 5)]
theorem wit_TileStores :
    (Quiet w134 ∧ BitVec.toNat (w134.gr 1#5) < 2 ^ 32 ∧ posBad (BitVec.toNat (w134.gr 2#5)) false = false ∧ posOff (w134.gr 2#5) % posBytes (w134.gr 2#5) = 0 ∧ ownTile w134 (1#5) 2 ∧ Ready w134 (Instr.tst 3#5 1#5 2#5 0#1 0#1) [1#5, 2#5, 3#5] [] ∧ PortTakes w134 2 (posRow (w134.gr 2#5)) (posOff (w134.gr 2#5)) (posBytes (w134.gr 2#5))) ∧
    (Quiet w135 ∧ BitVec.toNat (w135.gr 1#5) < 2 ^ 32 ∧ posBad (BitVec.toNat (w135.gr 2#5)) false = false ∧ posOff (w135.gr 2#5) % posBytes (w135.gr 2#5) = 0 ∧ ownTile w135 (1#5) 2 ∧ Ready w135 (Instr.tsr 3#5 1#5 2#5 0#1 0#1) [1#5, 2#5, 3#5] [] ∧ PortTakes w135 2 (posRow (w135.gr 2#5)) (posOff (w135.gr 2#5)) (posBytes (w135.gr 2#5)) ∧ (w135.tile 2).target = 0) ∧
    (Quiet w136 ∧ BitVec.toNat (w136.gr 1#5) < 2 ^ 32 ∧ posBad (BitVec.toNat (w136.gr 2#5)) false = false ∧ posOff (w136.gr 2#5) % posBytes (w136.gr 2#5) = 0 ∧ ownTile w136 (1#5) 2 ∧ (2, 10) ∈ [(2, 10), (3, 12), (4, 12)] ∧ Handles w136 ∧ PortRefuses w136 2 (posRow (w136.gr 2#5)) (posOff (w136.gr 2#5)) (posBytes (w136.gr 2#5)) 2 ∧ Ready w136 (Instr.tst 3#5 1#5 2#5 0#1 0#1) [1#5, 2#5, 3#5] []) ∧
    (Quiet w136 ∧ BitVec.toNat (w136.gr 1#5) < 2 ^ 32 ∧ posBad (BitVec.toNat (w136.gr 2#5)) false = false ∧ posOff (w136.gr 2#5) % posBytes (w136.gr 2#5) = 0 ∧ ownTile w136 (1#5) 2 ∧ (2, 10) ∈ [(2, 10), (3, 12), (4, 12)] ∧ Handles w136 ∧ PortRefuses w136 2 (posRow (w136.gr 2#5)) (posOff (w136.gr 2#5)) (posBytes (w136.gr 2#5)) 2 ∧ Ready w136 (Instr.tsr 3#5 1#5 2#5 0#1 0#1) [1#5, 2#5, 3#5] []) ∧
    (Quiet w137 ∧ BitVec.toNat (w137.gr 1#5) < 2 ^ 32 ∧ posBad (BitVec.toNat (w137.gr 2#5)) false = false ∧ posOff (w137.gr 2#5) % posBytes (w137.gr 2#5) = 0 ∧ ownTile w137 (1#5) 2 ∧ (3, 12) ∈ [(2, 10), (3, 12), (4, 12)] ∧ Handles w137 ∧ PortRefuses w137 2 (posRow (w137.gr 2#5)) (posOff (w137.gr 2#5)) (posBytes (w137.gr 2#5)) 3 ∧ Ready w137 (Instr.tst 3#5 1#5 2#5 0#1 0#1) [1#5, 2#5, 3#5] []) ∧
    (Quiet w138 ∧ BitVec.toNat (w138.gr 1#5) < 2 ^ 32 ∧ posBad (BitVec.toNat (w138.gr 2#5)) false = false ∧ posOff (w138.gr 2#5) % posBytes (w138.gr 2#5) = 0 ∧ ownTile w138 (1#5) 2 ∧ (4, 12) ∈ [(2, 10), (3, 12), (4, 12)] ∧ Handles w138 ∧ PortRefuses w138 2 (posRow (w138.gr 2#5)) (posOff (w138.gr 2#5)) (posBytes (w138.gr 2#5)) 4 ∧ Ready w138 (Instr.tsr 3#5 1#5 2#5 0#1 0#1) [1#5, 2#5, 3#5] []) ∧
    (Quiet w139 ∧ BitVec.toNat (w139.gr 1#5) < 2 ^ 32 ∧ posBad (BitVec.toNat (w139.gr 2#5)) false = false ∧ posOff (w139.gr 2#5) % posBytes (w139.gr 2#5) = 0 ∧ ownTile w139 (1#5) 2 ∧ (2, 10) ∈ [(2, 10), (3, 12), (4, 12)] ∧ Handles w139 ∧ PortRefuses w139 2 (posRow (w139.gr 2#5)) (posOff (w139.gr 2#5)) (posBytes (w139.gr 2#5)) 2 ∧ Ready w139 (Instr.tsr 3#5 1#5 2#5 0#1 0#1) [1#5, 2#5, 3#5] []) ∧
    (Quiet w140 ∧ BitVec.toNat (w140.gr 1#5) < 2 ^ 32 ∧ posBad (BitVec.toNat (w140.gr 2#5)) false = false ∧ posOff (w140.gr 2#5) % posBytes (w140.gr 2#5) = 0 ∧ ownTile w140 (1#5) 2 ∧ Ready w140 (Instr.tsq 3#5 1#5 2#5 0#1 0#1) [1#5, 2#5, 3#5] [3#5] ∧ PortTakes w140 2 (posRow (w140.gr 2#5)) (posOff (w140.gr 2#5)) (posBytes (w140.gr 2#5)) ∧ BitVec.getLsbD (w140.gr 2#5) 26 = false) ∧
    (Quiet w141 ∧ BitVec.toNat (w141.gr 1#5) < 2 ^ 32 ∧ posBad (BitVec.toNat (w141.gr 2#5)) false = false ∧ posOff (w141.gr 2#5) % posBytes (w141.gr 2#5) = 0 ∧ ownTile w141 (1#5) 2 ∧ PortRefuses w141 2 (posRow (w141.gr 2#5)) (posOff (w141.gr 2#5)) (posBytes (w141.gr 2#5)) 2 ∧ Ready w141 (Instr.tsq 3#5 1#5 2#5 0#1 0#1) [1#5, 2#5, 3#5] [3#5]) ∧
    (Quiet w142 ∧ BitVec.toNat (w142.gr 1#5) < 2 ^ 32 ∧ posBad (BitVec.toNat (w142.gr 2#5)) false = false ∧ posOff (w142.gr 2#5) % posBytes (w142.gr 2#5) = 0 ∧ ownTile w142 (1#5) 2 ∧ PortRefuses w142 2 (posRow (w142.gr 2#5)) (posOff (w142.gr 2#5)) (posBytes (w142.gr 2#5)) 3 ∧ Ready w142 (Instr.tsq 3#5 1#5 2#5 0#1 0#1) [1#5, 2#5, 3#5] [3#5]) ∧
    (Quiet w138 ∧ BitVec.toNat (w138.gr 1#5) < 2 ^ 32 ∧ posBad (BitVec.toNat (w138.gr 2#5)) false = false ∧ posOff (w138.gr 2#5) % posBytes (w138.gr 2#5) = 0 ∧ ownTile w138 (1#5) 2 ∧ PortRefuses w138 2 (posRow (w138.gr 2#5)) (posOff (w138.gr 2#5)) (posBytes (w138.gr 2#5)) 4 ∧ Ready w138 (Instr.tsq 3#5 1#5 2#5 0#1 0#1) [1#5, 2#5, 3#5] [3#5]) ∧
    (Quiet w143 ∧ BitVec.toNat (w143.gr 1#5) < 2 ^ 32 ∧ posBad (BitVec.toNat (w143.gr 2#5)) false = false ∧ posOff (w143.gr 2#5) % posBytes (w143.gr 2#5) = 0 ∧ w143.tileFor (w143.coreNo / 16) w143.cur.ctx (BitVec.toNat (w143.gr 1#5)) = none ∧ Ready w143 (Instr.tst 3#5 1#5 2#5 0#1 0#1) [1#5, 2#5, 3#5] [] ∧ Handles w143) ∧
    (Quiet w143 ∧ BitVec.toNat (w143.gr 1#5) < 2 ^ 32 ∧ posBad (BitVec.toNat (w143.gr 2#5)) false = false ∧ posOff (w143.gr 2#5) % posBytes (w143.gr 2#5) = 0 ∧ w143.tileFor (w143.coreNo / 16) w143.cur.ctx (BitVec.toNat (w143.gr 1#5)) = none ∧ Ready w143 (Instr.tsr 3#5 1#5 2#5 0#1 0#1) [1#5, 2#5, 3#5] [] ∧ Handles w143) ∧
    (Quiet w143 ∧ BitVec.toNat (w143.gr 1#5) < 2 ^ 32 ∧ posBad (BitVec.toNat (w143.gr 2#5)) false = false ∧ posOff (w143.gr 2#5) % posBytes (w143.gr 2#5) = 0 ∧ w143.tileFor (w143.coreNo / 16) w143.cur.ctx (BitVec.toNat (w143.gr 1#5)) = none ∧ Ready w143 (Instr.tsq 3#5 1#5 2#5 0#1 0#1) [1#5, 2#5, 3#5] [3#5]) := by
  constructorm* _ ∧ _ <;> first
    | decide +kernel
    | (unfold Handles; decide +kernel)
    | (unfold PortRefuses; decide +kernel)
    | (unfold PortTakes; decide +kernel)
    | (unfold Quiet; decide +kernel)
    | (unfold Ready; decide +kernel)
    | (unfold ownTile; decide +kernel)

def w144 : State := tiled { st := .open_, vcnt := 3, chimeAt := some 99 } [(1, full 0x8500)]
def w145 : State := tiled { st := .held, vcnt := 3, chime := true, target := 9 } [(1, full 0x8500)]
def w146 : State := tiled { st := .consumed, vcnt := 128 } [(1, full 0x8500)]
def w147 : State := tiled { st := .consumed, vcnt := 3 } [(1, full 0x8500)]
def w148 : State := tiled { st := .queued, vcnt := 3 } [(1, full 0x8500)]
def w149 : State := tiled { st := .queued, vcnt := 3 } [(1, full 0x8500), (2, full 0)]
def w150 : State := tiled { st := .queued, vcnt := 3, valid := 7 * 2^62 } [(1, full 0x8500), (2, full 1)]
def w151 : State := tiled { st := .queued, vcnt := 3, valid := 7 * 2^62 } [(1, full 0x8500), (2, full 2)]
theorem wit_TileLife :
    (Quiet w144 ∧ ownTile w144 (1#5) 2 ∧ Ready w144 (Instr.seal 3#5 1#5 0#1) [1#5] [3#5] ∧ (w144.tile 2).st = TileSt.open_ ∧ (w144.tile 2).postAfter ≤ w144.cycle ∧ (w144.tile 2).wroteAt ≠ some w144.cycle ∧ w144.boundIn (w144.latheOf 2) w144.cur.ctx = true ∧ (w144.lathe (w144.latheOf 2)).hq.length < 64 ∧ (w144.lathe (w144.latheOf 2)).hqWait = []) ∧
    (Quiet w145 ∧ ownTile w145 (1#5) 2 ∧ (TileSt.held, 2) ∈ [(TileSt.held, 2), (TileSt.queued, 3), (TileSt.consumed, 4)] ∧ Ready w145 (Instr.seal 3#5 1#5 0#1) [1#5] [3#5] ∧ (w145.tile 2).st = TileSt.held ∧ (w145.tile 2).wroteAt ≠ some w145.cycle ∧ (w145.tile 2).chimeAt = none ∧ (w145.tile 2).chimeLeft = none) ∧
    (Quiet w146 ∧ ownTile w146 (1#5) 2 ∧ (TileSt.consumed, 4) ∈ [(TileSt.held, 2), (TileSt.queued, 3), (TileSt.consumed, 4)] ∧ Ready w146 (Instr.seal 3#5 1#5 0#1) [1#5] [3#5] ∧ (w146.tile 2).st = TileSt.consumed ∧ (w146.tile 2).wroteAt ≠ some w146.cycle ∧ (w146.tile 2).chimeAt = none ∧ (w146.tile 2).chimeLeft = none) ∧
    (Quiet w147 ∧ ownTile w147 (1#5) 2 ∧ Ready w147 (Instr.tret 1#5 0#1) [1#5] [] ∧ (w147.tile 2).st = TileSt.consumed ∧ w147.tileRead 2 = false ∧ (w147.tile 2).returnLate = false) ∧
    (Quiet w148 ∧ ownTile w148 (1#5) 2 ∧ Ready w148 (Instr.tret 1#5 0#1) [1#5] [] ∧ (w148.tile 2).st = TileSt.queued ∧ Handles w148) ∧
    (Quiet w149 ∧ ownTile w149 (1#5) 2 ∧ Ready w149 (Instr.tinfo 3#5 1#5 2#5 0#1 0#1) [1#5, 2#5] [3#5] ∧ w149.gr 2#5 = 0) ∧
    (Quiet w150 ∧ ownTile w150 (1#5) 2 ∧ Ready w150 (Instr.tinfo 3#5 1#5 2#5 0#1 0#1) [1#5, 2#5] [3#5] ∧ w150.gr 2#5 = 1) ∧
    (Quiet w151 ∧ ownTile w151 (1#5) 2 ∧ Ready w151 (Instr.tinfo 3#5 1#5 2#5 0#1 0#1) [1#5, 2#5] [3#5] ∧ w151.gr 2#5 = 2) := by
  constructorm* _ ∧ _ <;> first
    | decide +kernel
    | (unfold Handles; decide +kernel)
    | (unfold Quiet; decide +kernel)
    | (unfold Ready; decide +kernel)
    | (unfold ownTile; decide +kernel)

def w152 : State := { tiled { st := .consumed } [(1, full 1), (2, full 0x8500)] with slots := [(0, { st := .active, launch := some 64, regs := [(1, full 1), (2, full 0x8500)] })] }
def w153 : State := regs [(1, full 4), (2, full 9)]
theorem wit_QueuePosts :
    (Quiet w152 ∧ 1 = 4 * (w152.coreNo / 16) + BitVec.toNat (w152.gr 1#5) ∧ BitVec.toNat (w152.gr 1#5) < 4 ∧ QueueOpen w152 1 ∧ Ready w152 (Instr.qpost 1#5 2#5 0#1 0#1) [1#5, 2#5] [] ∧ ownTile w152 (2#5) 2 ∧ (w152.tile 2).st = TileSt.consumed) ∧
    (Quiet w152 ∧ 1 = 4 * (w152.coreNo / 16) + BitVec.toNat (w152.gr 1#5) ∧ BitVec.toNat (w152.gr 1#5) < 4 ∧ QueueOpen w152 1 ∧ Ready w152 (Instr.qeos 1#5 0#1) [1#5] []) ∧
    (Quiet w153 ∧ 4 = 4 * (w153.coreNo / 16) + BitVec.toNat (w153.gr 1#5) ∧ 4 ≤ BitVec.toNat (w153.gr 1#5) ∧ Handles w153 ∧ Ready w153 (Instr.qpost 1#5 2#5 0#1 0#1) [1#5, 2#5] []) ∧
    (Quiet (regs [(1, full 4)]) ∧ 4 = 4 * ((regs [(1, full 4)]).coreNo / 16) + BitVec.toNat ((regs [(1, full 4)]).gr 1#5) ∧ 4 ≤ BitVec.toNat ((regs [(1, full 4)]).gr 1#5) ∧ Handles (regs [(1, full 4)]) ∧ Ready (regs [(1, full 4)]) (Instr.qeos 1#5 0#1) [1#5] []) := by
  exact ⟨by unfold Quiet QueueOpen Ready ownTile; decide +kernel,
    by unfold Quiet QueueOpen Ready; decide +kernel,
    by unfold Quiet Handles Ready; decide +kernel,
    by unfold Quiet Handles Ready; decide +kernel⟩

def w154 : State := regs [(1, full (2 * 2^61 + 5 * 2^53 + 3 * 2^37))]
def w155 : ℕ := 2 * 2^61 + 5 * 2^53 + 3 * 2^37
def w156 : Barrier := {}
def w157 : State := { regs [(1, full (2 * 2^61 + 5 * 2^53 + 3 * 2^37))] with clusters := [(0, { barriers := [(5, { owner := some 4, phase := 9 })] })] }
def w158 : Barrier := { owner := some 4, phase := 9 }
def w159 : State := { regs [(1, full (2 * 2^61 + 5 * 2^53 + 3 * 2^37))] with clusters := [(0, { barriers := [(5, { owner := some 0, phase := 65535, count := 3, arrivals := 2 })] })] }
def w160 : Barrier := { owner := some 0, phase := 65535, count := 3, arrivals := 2 }
def w161 : State := { regs [(1, full (2 * 2^61 + 5 * 2^53 + 3 * 2^37)), (2, full 8)] with clusters := [(0, { barriers := [(5, { phase := 9 })] })] }
def w162 : Barrier := { phase := 9 }
def w163 : State := { regs [(1, full (2 * 2^61 + 5 * 2^53 + 3 * 2^37)), (2, full 9)] with clusters := [(0, { barriers := [(5, { phase := 9 })] })] }
def w164 : State := regs [(1, full (2 * 2^61 + 5 * 2^53 + 2^37 + 2^34)), (2, full 9)]
def w165 : ℕ := 2 * 2^61 + 5 * 2^53 + 2^37 + 2^34
def w166 : State := regs [(1, full (4 * 2^61 + 5 * 2^53 + 2 * 2^37 + 2^34)), (2, full 9)]
def w167 : ℕ := 4 * 2^61 + 5 * 2^53 + 2 * 2^37 + 2^34
def w168 : State := { regs [(1, full (2 * 2^61 + 5 * 2^53 + 2 * 2^37 + 2^34)), (2, full 9)] with slots := [(0, { st := .active, pc := 0x80000, regs := [(1, full (2 * 2^61 + 5 * 2^53 + 2 * 2^37 + 2^34)), (2, full 9)] }), (4, { st := .parkedWait, tid := 3, pc := 0x90000, regs := [(7, full 1)], wait := .barRed (BitVec.ofNat 64 (2 * 2^61 + 5 * 2^53 + 2 * 2^37 + 2^34)) 65535 8 0 0 })], clusters := [(0, { barriers := [(5, { owner := some 0, phase := 65535, count := 2, op := 1, arrivals := 1, contribs := [(3, 4, 33)] })] })] }
def w169 : ℕ := 2 * 2^61 + 5 * 2^53 + 2 * 2^37 + 2^34
def w170 : Barrier := { owner := some 0, phase := 65535, count := 2, op := 1, arrivals := 1, contribs := [(3, 4, 33)] }
theorem wit_Barriers :
    (Quiet w154 ∧ w155 = BitVec.toNat (w154.gr 1#5) ∧ barBad w155 = false ∧ w156 = w154.barrier w154.coreNo w155 ∧ w154.cur.st = SlotSt.active ∧ Ready w154 (Instr.barArrive 3#5 1#5 0#1) [1#5] [3#5] ∧ barOp w155 = 0 ∧ w156.owner = none ∧ 1 < barCount w155) ∧
    (Quiet w157 ∧ w155 = BitVec.toNat (w157.gr 1#5) ∧ barBad w155 = false ∧ w158 = w157.barrier w157.coreNo w155 ∧ w157.cur.st = SlotSt.active ∧ Ready w157 (Instr.barArrive 3#5 1#5 0#1) [1#5] [3#5] ∧ barOp w155 = 0 ∧ w158.owner.isSome = true ∧ w158.owner ≠ some w157.cur.ctx) ∧
    (Quiet w159 ∧ w155 = BitVec.toNat (w159.gr 1#5) ∧ barBad w155 = false ∧ w160 = w159.barrier w159.coreNo w155 ∧ w159.cur.st = SlotSt.active ∧ Ready w159 (Instr.barArrive 3#5 1#5 0#1) [1#5] [3#5] ∧ barOp w155 = 0 ∧ w160.owner = some w159.cur.ctx ∧ w160.count = barCount w155 ∧ w160.op = 0 ∧ w160.km1 = barKm1 w155 ∧ w160.layer = barLayer w155 ∧ w160.arrivals + 1 = barCount w155) ∧
    (Quiet w161 ∧ w155 = BitVec.toNat (w161.gr 1#5) ∧ barBad w155 = false ∧ w162 = w161.barrier w161.coreNo w155 ∧ w161.cur.st = SlotSt.active ∧ Ready w161 (Instr.barWait 1#5 2#5 0#1 0#1) [1#5, 2#5] [] ∧ BitVec.getLsbD (w161.gr 2#5) 63 = false ∧ BitVec.toNat (w161.gr 2#5) % 2 ^ 16 ≠ w162.phase) ∧
    (Quiet w163 ∧ w155 = BitVec.toNat (w163.gr 1#5) ∧ barBad w155 = false ∧ w162 = w163.barrier w163.coreNo w155 ∧ w163.cur.st = SlotSt.active ∧ Ready w163 (Instr.barWait 1#5 2#5 0#1 0#1) [1#5, 2#5] [] ∧ BitVec.getLsbD (w163.gr 2#5) 63 = false ∧ BitVec.toNat (w163.gr 2#5) % 2 ^ 16 = w162.phase) ∧
    (Quiet w164 ∧ w165 = BitVec.toNat (w164.gr 1#5) ∧ barBad w165 = false ∧ w156 = w164.barrier w164.coreNo w165 ∧ w164.cur.st = SlotSt.active ∧ Ready w164 (Instr.barRed 3#5 1#5 2#5 0#1 0#1) [1#5, 2#5] [3#5] ∧ barOp w165 = 1 ∧ w156.owner = none ∧ barCount w165 = 1) ∧
    (Quiet w166 ∧ w167 = BitVec.toNat (w166.gr 1#5) ∧ barBad w167 = false ∧ w156 = w166.barrier w166.coreNo w167 ∧ w166.cur.st = SlotSt.active ∧ Ready w166 (Instr.barRed 3#5 1#5 2#5 0#1 0#1) [1#5, 2#5] [3#5] ∧ barOp w167 = 1 ∧ w156.owner = none ∧ 1 < barCount w167) ∧
    (Quiet w168 ∧ w169 = BitVec.toNat (w168.gr 1#5) ∧ barBad w169 = false ∧ w170 = w168.barrier w168.coreNo w169 ∧ w168.cur.st = SlotSt.active ∧ Ready w168 (Instr.barRed 3#5 1#5 2#5 0#1 0#1) [1#5, 2#5] [3#5] ∧ barOp w169 = 1 ∧ barCount w169 = 2 ∧ w170.owner = some w168.cur.ctx ∧ w170.count = 2 ∧ w170.op = 1 ∧ w170.km1 = barKm1 w169 ∧ w170.layer = barLayer w169 ∧ w170.arrivals = 1 ∧ w170.contribs = [((w168.slot 4).tid, 4, 33#64)] ∧ w170.phase < 2 ^ 16 ∧ 4 ≠ w168.key ∧ 4 / 16 = w168.coreNo ∧ (w168.slot 4).st = SlotSt.parkedWait ∧ (w168.slot 4).wait = Wait.barRed (w168.gr 1#5) w170.phase 8 0 0) := by
  constructorm* _ ∧ _ <;> first
    | decide +kernel
    | (unfold Quiet; decide +kernel)
    | (unfold Ready; decide +kernel)

def w171 : Ctx := { st := .running, saveb := 1 }
def w173 : Ctx := { st := .running, hyps := [(2, { st := .live })] }
def w172 : State := { regs [(1, full 2)] with ctxs := [(0, { st := .running, hyps := [(2, { st := .live })] })] }
def w175 : Ctx := { st := .running, saveb := 1, hyps := [(2, { st := .live }), (3, { st := .live })] }
def w174 : State := { one { hyp := 3, regs := [(1, full 2)] } with ctxs := [(0, { st := .running, saveb := 1, hyps := [(2, { st := .live }), (3, { st := .live })] })] }
def w176 : State := one { hyp := 3, regs := [(1, full 2)] }
theorem wit_HypothesisInstructions :
    (w171 = (regs [(1, full 0)]).ctx (regs [(1, full 0)]).cur.ctx ∧ BitVec.toNat ((regs [(1, full 0)]).gr 1#5) < 256 ∧ Ready (regs [(1, full 0)]) (Instr.hnew 3#5 1#5 0#1) [1#5] [3#5]) ∧
    (w173 = w172.ctx w172.cur.ctx ∧ BitVec.toNat (w172.gr 1#5) < 256 ∧ Ready w172 (Instr.hset 1#5 0#1) [1#5] [] ∧ (w173.hyp (BitVec.toNat (w172.gr 1#5))).st = HypSt.live ∧ w173.isUnder (BitVec.toNat (w172.gr 1#5)) w172.cur.hyp = true) ∧
    (w171 = (regs [(1, full 255)]).ctx (regs [(1, full 255)]).cur.ctx ∧ BitVec.toNat ((regs [(1, full 255)]).gr 1#5) < 256 ∧ Ready (regs [(1, full 255)]) (Instr.hset 1#5 0#1) [1#5] [] ∧ (w171.hyp (BitVec.toNat ((regs [(1, full 255)]).gr 1#5))).st ≠ HypSt.live ∧ Handles (regs [(1, full 255)])) ∧
    (w171 = (regs [(1, full 3)]).ctx (regs [(1, full 3)]).cur.ctx ∧ BitVec.toNat ((regs [(1, full 3)]).gr 1#5) < 256 ∧ (regs [(1, full 3)]).cur.hyp = 0 ∧ Quiet (regs [(1, full 3)]) ∧ Ready (regs [(1, full 3)]) (Instr.hconf 1#5 0#1) [1#5] []) ∧
    (w171 = (regs [(1, full 3)]).ctx (regs [(1, full 3)]).cur.ctx ∧ BitVec.toNat ((regs [(1, full 3)]).gr 1#5) < 256 ∧ (regs [(1, full 3)]).cur.hyp = 0 ∧ Quiet (regs [(1, full 3)]) ∧ Ready (regs [(1, full 3)]) (Instr.href 1#5 0#1) [1#5] [] ∧ (regs [(1, full 3)]).gr 1#5 ≠ 0) ∧
    (w175 = w174.ctx w174.cur.ctx ∧ BitVec.toNat (w174.gr 1#5) < 256 ∧ Ready w174 (Instr.hset 1#5 0#1) [1#5] [] ∧ (w175.hyp (BitVec.toNat (w174.gr 1#5))).st = HypSt.live ∧ w175.isUnder (BitVec.toNat (w174.gr 1#5)) w174.cur.hyp = false ∧ Handles w174) ∧
    (w171 = w176.ctx w176.cur.ctx ∧ BitVec.toNat (w176.gr 1#5) < 256 ∧ w176.cur.hyp ≠ 0 ∧ Quiet w176 ∧ Handles w176 ∧ Ready w176 (Instr.hconf 1#5 0#1) [1#5] []) ∧
    (w171 = w176.ctx w176.cur.ctx ∧ BitVec.toNat (w176.gr 1#5) < 256 ∧ w176.cur.hyp ≠ 0 ∧ Quiet w176 ∧ Handles w176 ∧ Ready w176 (Instr.href 1#5 0#1) [1#5] []) ∧
    (w171 = (regs [(1, full 0)]).ctx (regs [(1, full 0)]).cur.ctx ∧ BitVec.toNat ((regs [(1, full 0)]).gr 1#5) < 256 ∧ (regs [(1, full 0)]).gr 1#5 = 0 ∧ Quiet (regs [(1, full 0)]) ∧ Handles (regs [(1, full 0)]) ∧ Ready (regs [(1, full 0)]) (Instr.href 1#5 0#1) [1#5] []) := by
  constructorm* _ ∧ _ <;> first
    | decide +kernel
    | (unfold Handles; decide +kernel)
    | (unfold Quiet; decide +kernel)
    | (unfold Ready; decide +kernel)

def w177 : State := data [(1, full spVa), (3, full 0xFEDCBA9876543210)]
def w178 : State := data [(1, full spVa), (2, full spVa), (3, full 0x100000000)]
def w179 : State := { data [(1, full spVa), (2, full spVa), (3, full 10)] with sp := [(0x6000, 6), (0x6004, 5), (0x6011, 0x70), (0x601F, 0x60)] }
def w180 : ℕ := 6 + 5 * 2^32 + 0x7000 * 2^128 + 0x60 * 2^248
def w181 : State := data [(1, full spVa), (3, full 64)]
def w182 : State := data [(1, full spVa), (3, full 65)]
def w183 : State := data [(1, full spVa), (3, full 0)]
def w186 : State := { data [(1, full spVa), (2, full (spVa + 0x200)), (3, full 13)] with sp := [(0x6000, 6), (0x6004, 5), (0x6011, 0x70), (0x601F, 0x60)] }
def w187 : State := { data [(1, full spVa), (2, full (spVa + 0x200)), (3, full 13)] with sp := [(0x6000, 6), (0x6004, 5), (0x6011, 0x70), (0x601F, 0x60), (0x6021, 0x61), (0x6026, 0xFF), (0x6100, 4), (0x6104, 11), (0x6111, 0x90), (0x611F, 0x60), (0x6130, 7), (0x622C, 7)] }
def w188 : ℕ := 6 + 5 * 2^32 + 0x7000 * 2^128 + 0x60 * 2^248 + 0xFF000000006100 * 2^256
def w189 : ℕ := 4 + 11 * 2^32 + 0x9000 * 2^128 + 0x60 * 2^248 + 7 * 2^384
def w190 : State := { paged 0x10004F { regs := [(1, full spVa), (3, full 64)] } { pfxb := 0x80000 } with sp := [(0x6000, 1)], ctl := {} }
def w191 : State := { paged 0x10004F { regs := [(1, full spVa), (3, full 1)] } { pfxb := 0x80000 } with sp := [(0x6000, 1), (0x6100, 1)], hbm := pt 0x10004F ++ poke 0x100040 8 8 ++ poke 0x100048 8 (2^63 + spVa + 0x100) ++ poke 0x100058 8 0x80800, ctl := {} }
theorem wit_CacheInstructions :
    (Ready w177 (Instr.hashb 3#5 1#5 0#1) [1#5, 3#5] [3#5] ∧ Quiet w177 ∧ BitVec.toNat (w177.gr 1#5) % 4 = 0 ∧ PlainScratch w177 (BitVec.toNat (w177.gr 1#5) % 2 ^ 56) 64 24576) ∧
    (Ready w178 (Instr.gwalk 3#5 1#5 2#5 0#1 0#1) [1#5, 2#5, 3#5] [3#5] ∧ Quiet w178 ∧ BitVec.toNat (w178.gr 2#5) % 4 = 0 ∧ 2 ^ 32 ≤ BitVec.toNat (w178.gr 3#5)) ∧
    (Ready w179 (Instr.gwalk 3#5 1#5 2#5 0#1 0#1) [1#5, 2#5, 3#5] [3#5] ∧ Quiet w179 ∧ BitVec.toNat (w179.gr 2#5) % 4 = 0 ∧ PlainScratch w179 (BitVec.toNat (w179.gr 1#5) % 2 ^ 56) 64 24576 ∧ w180 = leNat (w179.sp.readBytes 24576 64) ∧ nodeBad w180 = false ∧ nodeStart w180 ≤ BitVec.toNat (w179.gr 3#5) ∧ BitVec.toNat (w179.gr 3#5) < nodeStart w180 + nodeLen w180 ∧ BitVec.toNat (w179.gr 3#5) < 2 ^ 32) ∧
    (Ready w181 (Instr.pfxl 3#5 1#5 0#1) [1#5, 3#5] [3#5] ∧ Quiet w181 ∧ 0 < BitVec.toNat (w181.gr 3#5) ∧ BitVec.toNat (w181.gr 3#5) ≤ 64 ∧ BitVec.toNat (w181.gr 1#5) % 4 = 0 ∧ BitVec.toNat (w181.ctx w181.cur.ctx).pfxb % 2 ^ 56 = 0 ∧ w181.cur.pfx = none) ∧
    (Ready w182 (Instr.pfxl 3#5 1#5 0#1) [1#5, 3#5] [3#5] ∧ Quiet w182 ∧ (BitVec.toNat (w182.gr 3#5) = 0 ∨ 64 < BitVec.toNat (w182.gr 3#5)) ∧ Handles w182) ∧
    (Ready w183 (Instr.pfxl 3#5 1#5 0#1) [1#5, 3#5] [3#5] ∧ Quiet w183 ∧ (BitVec.toNat (w183.gr 3#5) = 0 ∨ 64 < BitVec.toNat (w183.gr 3#5)) ∧ Handles w183) ∧
    (Ready w186 (Instr.gwalk 3#5 1#5 2#5 0#1 0#1) [1#5, 2#5, 3#5] [3#5] ∧ Quiet w186 ∧ BitVec.toNat (w186.gr 2#5) % 4 = 0 ∧ PlainScratch w186 (BitVec.toNat (w186.gr 1#5) % 2 ^ 56) 64 24576 ∧ w180 = leNat (w186.sp.readBytes 24576 64) ∧ nodeBad w180 = false ∧ 11 = nodeStart w180 + nodeLen w180 ∧ 11 ≤ BitVec.toNat (w186.gr 3#5) ∧ BitVec.toNat (w186.gr 3#5) < 2 ^ 32 ∧ PlainScratch w186 ((BitVec.toNat (w186.gr 2#5) % 2 ^ 56 + 4 * 11) % 2 ^ 56) 4 25132 ∧ nodeWord w180 4 = 0) ∧
    (Ready w187 (Instr.gwalk 3#5 1#5 2#5 0#1 0#1) [1#5, 2#5, 3#5] [3#5] ∧ Quiet w187 ∧ BitVec.toNat (w187.gr 2#5) % 4 = 0 ∧ PlainScratch w187 (BitVec.toNat (w187.gr 1#5) % 2 ^ 56) 64 24576 ∧ w188 = leNat (w187.sp.readBytes 24576 64) ∧ nodeBad w188 = false ∧ 11 = nodeStart w188 + nodeLen w188 ∧ 11 ≤ BitVec.toNat (w187.gr 3#5) ∧ BitVec.toNat (w187.gr 3#5) < 2 ^ 32 ∧ PlainScratch w187 ((BitVec.toNat (w187.gr 2#5) % 2 ^ 56 + 4 * 11) % 2 ^ 56) 4 25132 ∧ nodeWord w188 4 ≠ 0 ∧ PlainScratch w187 (nodeWord w188 4 % 2 ^ 56) 64 24832 ∧ w189 = leNat (w187.sp.readBytes 24832 64) ∧ bitsOf (nodeWord w189 6) 31 0 = leNat (w187.sp.readBytes 25132 4) ∧ nodeBad w189 = false ∧ nodeStart w189 = 11 ∧ BitVec.toNat (w187.gr 3#5) < 11 + nodeLen w189) ∧
    (Ready w190 (Instr.pfxl 3#5 1#5 0#1) [1#5, 3#5] [3#5] ∧ Quiet w190 ∧ BitVec.toNat (w190.gr 1#5) % 4 = 0 ∧ PlainScratch w190 (BitVec.toNat (w190.gr 1#5) % 2 ^ 56) 64 24576 ∧ 1 = leNat (w190.sp.readBytes 24576 64) ∧ w190.cur.pfx = none ∧ w190.cur.hyp = 0 ∧ (w190.core w190.coreNo).l1 = [] ∧ PrefixTableAt w190 1048576 ∧ 0 < BitVec.toNat (w190.gr 3#5) ∧ BitVec.toNat (w190.gr 3#5) ≤ 64 ∧ (∀ i < 64, ¬EntryHashes w190 1048576 i 1)) ∧
    (Ready w191 (Instr.pfxl 3#5 1#5 0#1) [1#5, 3#5] [3#5] ∧ Quiet w191 ∧ BitVec.toNat (w191.gr 1#5) % 4 = 0 ∧ PlainScratch w191 (BitVec.toNat (w191.gr 1#5) % 2 ^ 56) 64 24576 ∧ 1 = leNat (w191.sp.readBytes 24576 64) ∧ w191.cur.pfx = none ∧ w191.cur.hyp = 0 ∧ (w191.core w191.coreNo).l1 = [] ∧ PrefixTableAt w191 1048576 ∧ w191.gr 3#5 = 1 ∧ 2 < 64 ∧ EntryHashes w191 1048576 2 1 ∧ (∀ j < 2, ¬EntryHashes w191 1048576 j 1) ∧ PlainScratch w191 (bitsOf (pfxWord (prefixEntry w191 1048576 2) 1) 55 0) 64 24832 ∧ leNat (w191.sp.readBytes 24832 64) = 1 ∧ 526336 = bitsOf (pfxWord (prefixEntry w191 1048576 2) 3) 55 0 / 256 * 256 ∧ windowOf 526336 = Window3.global ∧ w191.walk w191.cur.ctx 526336 = WalkRes.leaf 3 81928 1048655 ∧ 526336 / 2 ^ pageLog 3 = (526336 + 4096 / 2 ^ bitsOf (pfxWord (prefixEntry w191 1048576 2) 2) 34 32 - 1) / 2 ^ pageLog 3 ∧ w191.walkBusy (w191.coreNo / 1024) w191.cur.ctx 526336 = false ∧ (∀ p ∈ w191.ctxs, p.2.pages = []) ∧ (w191.ctx w191.cur.ctx).pins.get (pinKey 3 526336) 0 < 65535 ∧ List.length (w191.ctx w191.cur.ctx).pins < 4096) := by
  constructorm* _ ∧ _ <;> first
    | decide +kernel
    | (unfold EntryHashes; decide +kernel)
    | (unfold Handles; decide +kernel)
    | (unfold PlainScratch; and_intros <;> first | decide +kernel | exact ⟨24576, by decide +kernel⟩ | exact ⟨24832, by decide +kernel⟩ | exact ⟨25132, by decide +kernel⟩)
    | (unfold PrefixTableAt; decide +kernel)
    | (unfold Quiet; decide +kernel)
    | (unfold Ready; decide +kernel)

def w184 : State := one { hyp := 3, regs := [(1, full spVa)] }
def w185 : State := { one { hnd := true, trec := 0x2040, regs := [(1, full 0x11)] } with hbm := [(0x1009, 0x20), (0x2059, 0x90), (0x2060, 0x11), (0x2061, 0x10), (0x2067, 0x80)], lathes := [(5, { trap := some { rec_ := { cause := 1, pc := 0, faddr := 0, ctx := 0, cycle := 0 }, written := true } })] }
theorem wit_CheckpointAndResume :
    (Ready (regs [(1, full spVa)]) (Instr.ckpt 1#5 0#1) [1#5] [] ∧ Quiet (regs [(1, full spVa)]) ∧ (regs [(1, full spVa)]).cur.hyp = 0 ∧ BitVec.toNat ((regs [(1, full spVa)]).gr 1#5) % 8 = 0 ∧ PlainScratch (regs [(1, full spVa)]) (BitVec.toNat ((regs [(1, full spVa)]).gr 1#5) % 2 ^ 56) 8 24576 ∧ leNat ((regs [(1, full spVa)]).sp.readBytes 24576 8) = 0 ∧ ((regs [(1, full spVa)]).ctx (regs [(1, full spVa)]).cur.ctx).st = CtxSt.running ∧ (∀ p ∈ (regs [(1, full spVa)]).clusters, p.2.xfers = []) ∧ (∀ p ∈ (regs [(1, full spVa)]).cores, p.2.directWrites = [])) ∧
    (Ready w184 (Instr.ckpt 1#5 0#1) [1#5] [] ∧ Quiet w184 ∧ w184.cur.hyp ≠ 0 ∧ Handles w184) ∧
    (Ready w185 (Instr.lresume 1#5 0#1) [1#5] [] ∧ w185.mayResume (BitVec.toNat (w185.gr 1#5)) = true ∧ 5 = latheOfWord (BitVec.toNat (w185.gr 1#5)) ∧ (w185.ctx w185.cur.ctx).recs = []) ∧
    (Ready (regs [(1, full 17)]) (Instr.lresume 1#5 0#1) [1#5] [] ∧ (regs [(1, full 17)]).mayResume (BitVec.toNat ((regs [(1, full 17)]).gr 1#5)) = false ∧ Handles (regs [(1, full 17)])) := by
  exact ⟨by unfold Ready Quiet PlainScratch; and_intros <;> first | decide +kernel | exact ⟨24576, by decide +kernel⟩,
    by unfold Ready Quiet Handles; decide +kernel,
    by unfold Ready; decide +kernel,
    by unfold Ready Handles; decide +kernel⟩

def w192 : State := { latV with sp := [(0x47DC, 7), (0x47DF, 9)] }
theorem wit_LatheScalarResults :
    (∀ p ∈ scalarOps, LatheReady latV (p.1 3#4 1#4 1#1 31#17)) ∧
    (∀ p ∈ scalarOps, LatheReady latV (p.1 3#4 1#4 0#1 16384#17)) ∧
    (LatheReady latV (Instr.scmp 3#4 1#4 2#4 2#3)) ∧
    (LatheReady latV (Instr.scmp 3#4 1#4 2#4 5#3)) ∧
    (LatheIdle latV) ∧
    (LatheIdle w192 ∧ w192.views = []) := by
  constructorm* _ ∧ _ <;> first
    | decide +kernel
    | (unfold LatheIdle; decide +kernel)
    | (unfold LatheReady LatheIdle; decide +kernel)
    | (unfold LatheReady; decide +kernel)

def w193 : State := lat { loops := [(1,1),(2,2),(3,3),(4,4)] }
theorem wit_LatheSequencing :
    (LatheReady latV (Instr.sb 1#2 3#4 65534#16) ∧ (1#2 = 0 ∨ 1#2 = 1 ∧ lq latV 3#4 = 0 ∨ 1#2 = 2 ∧ lq latV 3#4 ≠ 0)) ∧
    (LatheReady latV (Instr.sb 0#2 0#4 32767#16) ∧ (0#2 = 0 ∨ 0#2 = 1 ∧ lq latV 0#4 = 0 ∨ 0#2 = 2 ∧ lq latV 0#4 ≠ 0)) ∧
    (LatheReady latV (Instr.sb 2#2 3#4 32767#16) ∧ (2#2 = 1 ∧ lq latV 3#4 ≠ 0 ∨ 2#2 = 2 ∧ lq latV 3#4 = 0)) ∧
    (LatheReady latV (Instr.loop 0#1 3#4 0#16) ∧ (0#32 = if 0#1 = 1#1 then BitVec.zeroExtend 32 0#16 else lq latV 3#4) ∧ 0#32 = 0) ∧
    (LatheReady latV (Instr.loop 1#1 0#4 5#16) ∧ (5#32 = if 1#1 = 1#1 then BitVec.zeroExtend 32 5#16 else lq latV 0#4) ∧ 5#32 ≠ 0 ∧ (latV.lathe (lno latV)).loops.length < 4) ∧
    (LatheReady w193 (Instr.loop 1#1 0#4 5#16) ∧ (5#32 = if 1#1 = 1#1 then BitVec.zeroExtend 32 5#16 else lq w193 0#4) ∧ 5#32 ≠ 0 ∧ 4 ≤ (w193.lathe (lno w193)).loops.length ∧ CanTrap w193) ∧
    (LatheIdle latV ∧ CanTrap latV) := by
  constructorm* _ ∧ _ <;> first
    | decide +kernel
    | (unfold CanTrap; and_intros <;> first | decide +kernel | exact noPost (by decide +kernel))
    | (unfold LatheIdle CanTrap; and_intros <;> first | decide +kernel | exact noPost (by decide +kernel))
    | (unfold LatheIdle; decide +kernel)
    | (unfold LatheReady LatheIdle CanTrap; and_intros <;> first | decide +kernel | exact noPost (by decide +kernel))
    | (unfold LatheReady LatheIdle; decide +kernel)
    | (unfold LatheReady; decide +kernel)

def w194 : State := { latT {} { st := .queued } {} with lathes := [(1, { pc := 0x80000, hq := [{ chime := true, vcnt := 9, handle := 0x8500 }] })] }
def w195 : HqEntry := { chime := true, vcnt := 9, handle := 0x8500 }
def w196 : State := { latT {} { st := .queued } {} with lathes := [(1, { pc := 0x80000, hq := [{ eos := true }] })] }
def w197 : HqEntry := { eos := true }
def w198 : State := latT {} { st := .consumed } {}
def w199 : State := latT {} { st := .open_ } {}
def w200 : State := latT {} { st := .queued } {}
def w201 : State := lat { fifo := { stall := 5 } }
def w202 : State := lat { q := [(3, 0x4000)] }
def w203 : State := lat { q := [(1, 6)], fifo := { stall := 13 } }
theorem wit_LatheQueues :
    (LatheIdle w194 ∧ (w194.lathe (lno w194)).hq = [w195] ∧ w195.eos = false ∧ (w194.lathe (lno w194)).hqWait = []) ∧
    (LatheIdle w196 ∧ (w196.lathe (lno w196)).hq = [w197] ∧ w197.eos = true ∧ (w196.lathe (lno w196)).hqWait = []) ∧
    (LatheIdle latV ∧ (latV.lathe (lno latV)).hq = []) ∧
    (LatheIdle w198 ∧ 1 = lno w198 / 4 * 4 + (1#2).toNat ∧ PostOpen w198 1 ∧ latheTileIs w198 (1#3) 2 ∧ (w198.tile 2).st = TileSt.consumed) ∧
    (LatheIdle w198 ∧ 1 = lno w198 / 4 * 4 + (1#2).toNat ∧ PostOpen w198 1) ∧
    (LatheIdle w198 ∧ latheTileIs w198 (1#3) 2 ∧ ((w198.tile 2).st = TileSt.open_ ∨ (w198.tile 2).st = TileSt.consumed) ∧ (w198.tile 2).returnLate = false ∧ (∀ p ∈ w198.lathes, p.2.reads = []) ∧ (∀ p ∈ w198.clusters, p.2.xfers = [])) ∧
    (LatheIdle w199 ∧ latheTileIs w199 (1#3) 2 ∧ ((w199.tile 2).st = TileSt.open_ ∨ (w199.tile 2).st = TileSt.consumed) ∧ (w199.tile 2).returnLate = false ∧ (∀ p ∈ w199.lathes, p.2.reads = []) ∧ (∀ p ∈ w199.clusters, p.2.xfers = [])) ∧
    (LatheIdle w200 ∧ latheTileIs w200 (1#3) 2 ∧ ((w200.tile 2).st = TileSt.held ∨ (w200.tile 2).st = TileSt.queued) ∧ CanTrap w200) ∧
    (LatheIdle latV ∧ (35#6).toNat ∈ [0, 2, 7, 8, 11, 14, 32, 33, 34, 35]) ∧
    (LatheIdle latV ∧ (3#6).toNat = 3) ∧
    (LatheIdle latV ∧ (4#6).toNat = 4) ∧
    (LatheIdle latV ∧ (9#6).toNat = 9) ∧
    (LatheIdle w201 ∧ (24#6).toNat = 24) ∧
    (LatheIdle latV ∧ ((36#6).toNat = 15 ∨ 26 ≤ (36#6).toNat ∧ (36#6).toNat ≤ 31 ∨ 36 ≤ (36#6).toNat) ∧ CanTrap latV) ∧
    (LatheIdle latV ∧ ((15#6).toNat = 15 ∨ 26 ≤ (15#6).toNat ∧ (15#6).toNat ≤ 31 ∨ 36 ≤ (15#6).toNat) ∧ CanTrap latV) ∧
    (LatheIdle latV ∧ ((31#6).toNat = 15 ∨ 26 ≤ (31#6).toNat ∧ (31#6).toNat ≤ 31 ∨ 36 ≤ (31#6).toNat) ∧ CanTrap latV) ∧
    (LatheIdle latV ∧ (33#6).toNat ∈ [0, 2, 7, 8, 11, 14, 32, 33, 34, 35]) ∧
    (LatheIdle w202 ∧ (4#6).toNat = 4 ∧ BitVec.toNat (lq w202 3#4) % 4 = 0) ∧
    (LatheIdle w203 ∧ (24#6).toNat = 24) ∧
    (LatheIdle latV ∧ (25#6).toNat ∈ [1, 3, 9, 12, 25] ∧ CanTrap latV) := by
  constructorm* _ ∧ _ <;> first
    | decide +kernel
    | (unfold CanTrap; and_intros <;> first | decide +kernel | exact noPost (by decide +kernel))
    | (unfold LatheIdle CanTrap; and_intros <;> first | decide +kernel | exact noPost (by decide +kernel))
    | (unfold LatheIdle latheTileIs CanTrap; and_intros <;> first | decide +kernel | exact noPost (by decide +kernel))
    | (unfold LatheIdle; decide +kernel)
    | (unfold PostOpen; decide +kernel)
    | (unfold latheTileIs; decide +kernel)

theorem wit_LatheLaneResults :
    (∀ p ∈ intLaneOps, (∀ p1 ∈ intTypes, LatheReady latV (p.1 (3#5) (1#5) (2#5) p1.1))) ∧
    (∀ p ∈ intLaneOps, (∀ p1 ∈ intTypes, LatheReady latV (p.1 (1#5) (1#5) (1#5) p1.1))) ∧
    (∀ p ∈ floatLaneOps, (∀ p1 ∈ floatTypes, LatheReady latV (p.1 (3#5) (1#5) (2#5) p1.1))) ∧
    (∀ p ∈ intTypes, LatheReady latV (Instr.vcmp (3#5) (1#5) (2#5) p.1 2#3)) ∧
    (∀ p ∈ intTypes, LatheReady latV (Instr.vcmp (3#5) (1#5) (2#5) p.1 5#3)) ∧
    (∀ p ∈ floatTypes, LatheReady latV (Instr.vcmp (3#5) (1#5) (2#5) p.1 3#3)) ∧
    (∀ p ∈ floatTypes, LatheReady latV (Instr.vcmp (3#5) (1#5) (2#5) p.1 1#3)) := by
  constructorm* _ ∧ _ <;> first
    | decide +kernel
    | (unfold LatheIdle; decide +kernel)
    | (unfold LatheReady LatheIdle; decide +kernel)
    | (unfold LatheReady; decide +kernel)

def w204 : State := lat { v := [(1, vec 3)], a := [(2, acc1)] }
def w205 : State := lat { v := [(1, vec 3)], a := [(2, { acc1 with form := .fp64 })] }
theorem wit_LatheVectorResults :
    (LatheReady latV (Instr.vcvt 3#5 1#5 2#3 1#3) ∧ laneWidth (1#3).toNat = laneWidth (2#3).toNat) ∧
    (LatheReady latV (Instr.vcvt 4#5 2#5 5#3 2#3) ∧ laneWidth (2#3).toNat = 32 ∧ laneWidth (5#3).toNat = 16) ∧
    (LatheReady latV (Instr.vcvt 2#5 1#5 2#3 5#3) ∧ laneWidth (5#3).toNat = 16 ∧ laneWidth (2#3).toNat = 32) ∧
    (LatheReady latV (Instr.vbcast 3#5 2#4 3#3)) ∧
    (LatheIdle latV) ∧
    (LatheIdle w204 ∧ (0#3 = 0 ∨ 0#3 = 2)) ∧
    (LatheIdle w205 ∧ (2#3 = 0 ∨ 2#3 = 2)) := by
  constructorm* _ ∧ _ <;> first
    | decide +kernel
    | (unfold LatheIdle; decide +kernel)
    | (unfold LatheReady LatheIdle; decide +kernel)
    | (unfold LatheReady; decide +kernel)

def w206 : State := lat { v := [(1, (BitVec.ofNat 2048 (0x3F000000 * 2^64 + 0xBF000000 * 2^32 + 0x40490FDB)))] }
def w207 : State := lat { a := [(1, { acc1 with m := [] }), (2, acc1)] }
def w208 : State := lat { a := [(1, acc1)] }
def w209 : State := lat { a := [(1, { form := .int32 })] }
def w210 : State := latT { a := [(1, acc1), (2, acc1)], q := [(1, 0x3F800000)] } { st := .open_, valid := 2^64 } {}
theorem wit_LatheFunctionResults :
    (LatheIdle w206) ∧
    (LatheReady w207 (Instr.smxm 1#3 2#3) ∧ (la w207 1#3).form = AccForm.fp32 ∧ (la w207 2#3).form = AccForm.fp32) ∧
    (LatheIdle w208 ∧ (la w208 1#3).form = AccForm.fp32) ∧
    (LatheIdle w209 ∧ (la w209 1#3).form ≠ AccForm.fp32 ∧ CanTrap w209) ∧
    (LatheIdle w209) ∧
    (LatheReady w210 (Instr.smx 1#3 2#3 1#4 1#3) ∧ (la w210 1#3).form = AccForm.fp32 ∧ (la w210 2#3).form = AccForm.fp32 ∧ latheTileIs w210 (1#3) 2 ∧ (w210.tile 2).st = TileSt.open_ ∧ (w210.tile 2).sealsNow w210.cycle = false ∧ (w210.tile 2).target = 0 ∧ (w210.tile 2).shape.fmt = 10 ∧ 64 ≤ (w210.tile 2).shape.rows ∧ 64 ≤ (w210.tile 2).shape.cols ∧ BitVec.extractLsb' 0 64 (w210.tile 2).valid = 0 ∧ 2 ∉ w210.sealedByOthers (lno w210)) := by
  constructorm* _ ∧ _ <;> first
    | decide +kernel
    | (unfold CanTrap; and_intros <;> first | decide +kernel | exact noPost (by decide +kernel))
    | (unfold LatheIdle CanTrap; and_intros <;> first | decide +kernel | exact noPost (by decide +kernel))
    | (unfold LatheIdle; decide +kernel)
    | (unfold LatheReady LatheIdle latheTileIs; decide +kernel)
    | (unfold LatheReady LatheIdle; decide +kernel)
    | (unfold LatheReady; decide +kernel)
    | (unfold latheTileIs; decide +kernel)

def w211 : State := latT { q := [(3, 0x00004001)] } { st := .queued, valid := 7 } { st := .consumed, valid := 5 }
def w212 : MatClass := { m := 64, k := 32, g := 16, form := .fp32 }
def w213 : State := latT {} { st := .open_ } {st := .queued}
def w214 : State := latT { a := [(1, { form := .int32 })] } { st := .held } {st := .queued}
def w215 : State := { latT {} { st := .queued } { st := .queued } with tiles := [(2, { st := .queued, gen := 5, shape := shape64 }), (3, { st := .queued, gen := 5, shape := { shape64 with base := 0xA000, fmt := 12 } })] }
theorem wit_MatrixIssue :
    (LatheIdle w211 ∧ PlainTiles w211 ∧ latheTileIs w211 (1#3) 2 ∧ latheTileIs w211 (2#3) 3 ∧ 16385#32 = lq w211 3#4 ∧ (w211.tile 2).st ≠ TileSt.open_ ∧ (w211.tile 3).st ≠ TileSt.open_ ∧ matClass (w211.tile 2).shape.fmt (w211.tile 3).shape.fmt = some w212 ∧ (w211.tile 2).shape.fmt ≠ 14 ∧ (w211.tile 3).shape.fmt ≠ 14 ∧ (0#1 = 1#1 ∨ (la w211 1#3).form = w212.form)) ∧
    (LatheIdle w213 ∧ PlainTiles w213 ∧ latheTileIs w213 (1#3) 2 ∧ latheTileIs w213 (2#3) 3 ∧ 0#32 = lq w213 3#4 ∧ CanTrap w213 ∧ ((w213.tile 2).st = TileSt.open_ ∨ (w213.tile 3).st = TileSt.open_)) ∧
    (LatheIdle w214 ∧ PlainTiles w214 ∧ latheTileIs w214 (1#3) 2 ∧ latheTileIs w214 (2#3) 3 ∧ 0#32 = lq w214 3#4 ∧ CanTrap w214 ∧ (w214.tile 2).st ≠ TileSt.open_ ∧ (w214.tile 3).st ≠ TileSt.open_ ∧ matClass (w214.tile 2).shape.fmt (w214.tile 3).shape.fmt = some w212 ∧ 0#1 = 0#1 ∧ (la w214 1#3).form ≠ w212.form) ∧
    (LatheIdle w215 ∧ PlainTiles w215 ∧ latheTileIs w215 (1#3) 2 ∧ latheTileIs w215 (2#3) 3 ∧ 0#32 = lq w215 3#4 ∧ CanTrap w215 ∧ (w215.tile 2).st ≠ TileSt.open_ ∧ (w215.tile 3).st ≠ TileSt.open_ ∧ matClass (w215.tile 2).shape.fmt (w215.tile 3).shape.fmt = none) := by
  constructorm* _ ∧ _ <;> first
    | decide +kernel
    | (unfold CanTrap; and_intros <;> first | decide +kernel | exact noPost (by decide +kernel))
    | (unfold LatheIdle PlainTiles latheTileIs CanTrap; and_intros <;> first | decide +kernel | exact noPost (by decide +kernel))
    | (unfold LatheIdle; decide +kernel)
    | (unfold PlainTiles; decide +kernel)
    | (unfold latheTileIs; decide +kernel)

def w216 : State := lat { mats := [{ acc := 1, start := 88, landsAt := 136 }] }
def w217 : MatOp := { acc := 1, start := 88, landsAt := 136 }
theorem wit_ScaleAndExchange :
    ((w216.lathe (lno w216)).pending = [] ∧ (w216.lathe (lno w216)).reads = [] ∧ (w216.lathe (lno w216)).relPending = false ∧ (w216.lathe (lno w216)).eDone = false ∧ (w216.lathe (lno w216)).mats = [w217] ∧ w217.start + 12 = w216.cycle ∧ w216.cycle < w217.landsAt) ∧
    ((latV.lathe (lno latV)).pending = [] ∧ (latV.lathe (lno latV)).reads = [] ∧ (latV.lathe (lno latV)).relPending = false ∧ (latV.lathe (lno latV)).eDone = false ∧ (latV.lathe (lno latV)).mats = []) ∧
    (((gang false).lathe 0).bound.isSome = true ∧ (∀ i < 4, GangLathe (gang false) 0 i) ∧ 0 = lno (gang false) / 4 * 4 ∧ (∀ i < 4, 0 + i ≠ lno (gang false) → AtXchg (gang false) 0 i 2 1)) ∧
    (((gang true).lathe 0).bound.isSome = true ∧ (∀ i < 4, GangLathe (gang true) 0 i) ∧ 0 = 4 * (gang true).ctl.at_.cluster ∧ (∀ i < 4, AtXchg (gang true) 0 i 2 1)) := by
  exact ⟨by decide +kernel,
    by decide +kernel,
    by unfold GangLathe AtXchg; decide +kernel,
    by unfold GangLathe AtXchg; decide +kernel⟩

def w218 : State := latT {} { st := .consumed, valid := 2 } {}
def w219 : State := latT {} { st := .open_, valid := 2 } {}
def w220 : State := latT {} { st := .open_, valid := 2^127 } {}
def w221 : State := latT { v := [(3, vec 3)] } { st := .open_, valid := 2^127 } {}
def w222 : State := latT { v := [(3, vec 3)] } { st := .open_, vcnt := 3 } {}
def w223 : State := latT { v := [(3, vec 3)] } { st := .consumed, vcnt := 3 } {}
def w224 : State := lat { v := [(3, vec 3)], q := [(1, 0x80100)] }
def w225 : State := lat { v := [(3, vec 3)], q := [(1, 0x80101)] }
def w226 : State := { lat { v := [(3, vec 3)], fifo := { entries := List.replicate 16 { w := [] } } } with ctxs := [(0, { cstrict := true })] }
def w227 : State := lat { v := [(3, vec 3)], fifo := { entries := List.replicate 16 { w := [] }, stall := 2 ^ 32 - 1 } }
def w230 : State := { latT {} { st := .open_ } {} with lathes := [(0, { h := [(1, 0x8500)], bound := some 64, pc := 0x80000 }), (1, { h := [(1, 0x8500)], v := [(3, vec 3)], bound := some 64, pc := 0x80000 })], hbm := (0x1009, 0x20) :: poke 0x80000 8 (2 ^ 30 + 2 ^ 32 * ((encodeSlot (.tseal 1)).getD 0).toNat) }
theorem wit_LatheTileAccess :
    (LatheIdle w218 ∧ latheTileIs w218 (1#3) 2 ∧ 2 = elemSize (w218.tile 2).shape.fmt ∧ (w218.tile 2).st ≠ TileSt.open_ ∧ (w218.tile 2).shape.fmt ≠ 14 ∧ PlainTiles w218) ∧
    (LatheIdle w219 ∧ latheTileIs w219 (1#3) 2 ∧ 2 = elemSize (w219.tile 2).shape.fmt ∧ (w219.tile 2).st = TileSt.open_ ∧ CanTrap w219) ∧
    (LatheIdle w220 ∧ latheTileIs w220 (1#3) 2 ∧ 2 = elemSize (w220.tile 2).shape.fmt) ∧
    (LatheIdle w221 ∧ latheTileIs w221 (1#3) 2 ∧ 2 = elemSize (w221.tile 2).shape.fmt ∧ (w221.tile 2).st = TileSt.open_ ∧ (w221.tile 2).sealsNow w221.cycle = false ∧ (w221.tile 2).target = 0 ∧ (w221.tile 2).shape.fmt ≠ 14 ∧ (63#7).toNat < (w221.tile 2).shape.rows ∧ 256 * (0#5).toNat < (w221.tile 2).shape.cols * 2 ∧ (w221.tile 2).valid.getLsbD (63#7).toNat = false ∧ 0 < (w221.tile 2).shape.estr ∧ 2 ∉ w221.sealedByOthers (lno w221)) ∧
    (LatheIdle w221 ∧ latheTileIs w221 (1#3) 2 ∧ 2 = elemSize (w221.tile 2).shape.fmt ∧ (w221.tile 2).st = TileSt.open_ ∧ (w221.tile 2).sealsNow w221.cycle = false ∧ (w221.tile 2).target = 0 ∧ (w221.tile 2).shape.fmt ≠ 14 ∧ (0#7).toNat < (w221.tile 2).shape.rows ∧ 256 * (0#5).toNat < (w221.tile 2).shape.cols * 2 ∧ (w221.tile 2).valid.getLsbD (0#7).toNat = false ∧ 0 < (w221.tile 2).shape.estr ∧ 2 ∉ w221.sealedByOthers (lno w221)) ∧
    (LatheIdle w222 ∧ latheTileIs w222 (1#3) 2 ∧ 2 = elemSize (w222.tile 2).shape.fmt ∧ (w222.tile 2).st = TileSt.open_ ∧ (w222.tile 2).wroteAt ≠ some w222.cycle ∧ (w222.tile 2).postAfter ≤ w222.cycle ∧ w222.boundIn (w222.latheOf 2) (w222.lathe (lno w222)).ctx = true ∧ (w222.lathe (w222.latheOf 2)).hq.length < 64 ∧ (w222.lathe (w222.latheOf 2)).hqWait = []) ∧
    (LatheIdle w223 ∧ latheTileIs w223 (1#3) 2 ∧ 2 = elemSize (w223.tile 2).shape.fmt ∧ (w223.tile 2).st ≠ TileSt.open_) ∧
    (LatheIdle w224 ∧ 524544 = (BitVec.toNat (lq w224 2#4) * 2 ^ 32 + BitVec.toNat (lq w224 1#4)) % 2 ^ 56 ∧ 524544 % 256 = 0 ∧ windowOf 524544 = Window3.global ∧ w224.look (lno w224 / 4) (w224.lathe (lno w224)).ctx 524544 Acc3.write true false = Tr.ok w80 524544 ∧ w80.tgt = 0) ∧
    (LatheIdle w225 ∧ 524545 = (BitVec.toNat (lq w225 2#4) * 2 ^ 32 + BitVec.toNat (lq w225 1#4)) % 2 ^ 56 ∧ 524545 % 256 ≠ 0 ∧ CanTrap w225) ∧
    (LatheIdle w225 ∧ 524545 = (BitVec.toNat (lq w225 2#4) * 2 ^ 32 + BitVec.toNat (lq w225 1#4)) % 2 ^ 56 ∧ (w225.lathe (lno w225)).fifo.entries.length < 16) ∧
    (LatheIdle w226 ∧ 0 = (BitVec.toNat (lq w226 2#4) * 2 ^ 32 + BitVec.toNat (lq w226 1#4)) % 2 ^ 56 ∧ 16 ≤ (w226.lathe (lno w226)).fifo.entries.length ∧ (w226.ctx (w226.lathe (lno w226)).ctx).cstrict = true ∧ CanTrap w226) ∧
    (LatheIdle w227 ∧ 0 = (BitVec.toNat (lq w227 2#4) * 2 ^ 32 + BitVec.toNat (lq w227 1#4)) % 2 ^ 56 ∧ 16 ≤ (w227.lathe (lno w227)).fifo.entries.length ∧ (w227.ctx (w227.lathe (lno w227)).ctx).cstrict = false ∧ (w227.lathe (lno w227)).stalledPost = false) ∧
    (LatheIdle w230 ∧ latheTileIs w230 (1#3) 2 ∧ 2 = elemSize (w230.tile 2).shape.fmt ∧ (w230.tile 2).st = TileSt.open_ ∧ (w230.tile 2).shape.fmt ≠ 14 ∧ (0#7).toNat < (w230.tile 2).shape.rows ∧ 256 * (0#5).toNat < (w230.tile 2).shape.cols * 2 ∧ 2 ∈ w230.sealedByOthers (lno w230) ∧ CanTrap w230) := by
  constructorm* _ ∧ _ <;> first
    | decide +kernel
    | (unfold CanTrap; and_intros <;> first | decide +kernel | exact noPost (by decide +kernel))
    | (unfold LatheIdle CanTrap; and_intros <;> first | decide +kernel | exact noPost (by decide +kernel))
    | (unfold LatheIdle latheTileIs CanTrap; and_intros <;> first | decide +kernel | exact noPost (by decide +kernel))
    | (unfold LatheIdle; decide +kernel)
    | (unfold PlainTiles; decide +kernel)
    | (unfold latheTileIs; decide +kernel)

def w228 : State := lat { pending := [(.v 2, 101)] }
def w229 : State := lat { trap := some { rec_ := { cause := 15, pc := 0x80000, faddr := 0, ctx := 0, cycle := 100 } } }
theorem wit_LatheTraps :
    ((kindOf (Instr.vcvt 3 2 5 2)).isSome = true ∧ (∀ (vd va : BitVec 5), Instr.vcvt 3 2 5 2 ≠ Instr.xchg vd va) ∧ CanTrap latV ∧ slotValueLegal (Instr.vcvt 3 2 5 2) = false) ∧
    ((kindOf (Instr.vcvt 3 3 5 2)).isSome = true ∧ (∀ (vd va : BitVec 5), Instr.vcvt 3 3 5 2 ≠ Instr.xchg vd va) ∧ CanTrap latV ∧ slotValueLegal (Instr.vcvt 3 3 5 2) = false) ∧
    ((kindOf (Instr.vadd 3 1 2 0)).isSome = true ∧ (∀ (vd va : BitVec 5), Instr.vadd 3 1 2 0 ≠ Instr.xchg vd va) ∧ CanTrap w228 ∧ slotValueLegal (Instr.vadd 3 1 2 0) = true ∧ Unstalled w228 (Instr.vadd 3 1 2 0) ∧ LReg.v 2 ∈ slotReads (Instr.vadd 3 1 2 0) ++ slotWrites (Instr.vadd 3 1 2 0) ∧ (w228.lathe (lno w228)).pending = [(LReg.v 2, 101)] ∧ w228.cycle < 101 ∧ (w228.lathe (lno w228)).mats = [] ∧ (w228.lathe (lno w228)).reads = [] ∧ (w228.lathe (lno w228)).relPending = false) ∧
    (CanTrap latV) ∧
    (w229.trapDue (lno w229) = some w38 ∧ (w229.lathe (lno w229)).pending = [] ∧ (w229.lathe (lno w229)).mats = [] ∧ (w229.lathe (lno w229)).reads = [] ∧ w229.inTurn w38 = true ∧ w229.ringIndex w38.ctx = some 0 ∧ 8192 = (w229.ctx w38.ctx).saveb * 4096 + 4096 + 64 * (0 % 256)) := by
  constructorm* _ ∧ _ <;> first
    | decide +kernel
    | (unfold CanTrap Unstalled; and_intros <;> first | decide +kernel | exact noPost (by decide +kernel))
    | (unfold CanTrap; and_intros <;> first | decide +kernel | exact noPost (by decide +kernel))
    | (unfold Unstalled; decide +kernel)

def w231 : State := lat { a := [(1, acc1)], mats := [{ acc := 1, start := 52, landsAt := 100, e := -1, fmtA := 9, fmtB := 9, a := List.replicate 64 (List.replicate 8 0x3F800000), b := List.replicate 64 (List.replicate 8 0x40400000), cv := 5 }] }
def w232 : MatOp := { acc := 1, start := 52, landsAt := 100, e := -1, fmtA := 9, fmtB := 9, a := List.replicate 64 (List.replicate 8 0x3F800000), b := List.replicate 64 (List.replicate 8 0x40400000), cv := 5 }
def w233 : MatClass := { m := 64, k := 8, g := 8, form := .fp32 }
def w234 : State := lat { a := [(1, acc1)], mats := [{ acc := 1, start := 52, landsAt := 100, dis := true, form := .fp64, fmtA := 8, fmtB := 8, a := List.replicate 32 (List.replicate 16 0x3FF0000000000000), b := List.replicate 32 (List.replicate 16 0x4010000000000000), cv := 5 }] }
def w235 : MatOp := { acc := 1, start := 52, landsAt := 100, dis := true, form := .fp64, fmtA := 8, fmtB := 8, a := List.replicate 32 (List.replicate 16 0x3FF0000000000000), b := List.replicate 32 (List.replicate 16 0x4010000000000000), cv := 5 }
def w236 : MatClass := { m := 32, k := 16, g := 8, form := .fp64 }
def w237 : State := lat { a := [(1, {acc1 with form := .int32})], mats := [{ acc := 1, start := 52, landsAt := 100, form := .int32, fmtA := 1, fmtB := 2, a := List.replicate 64 (List.replicate 64 0xFF), b := List.replicate 64 (List.replicate 64 0xFF), cv := 5 }] }
def w238 : MatOp := { acc := 1, start := 52, landsAt := 100, form := .int32, fmtA := 1, fmtB := 2, a := List.replicate 64 (List.replicate 64 0xFF), b := List.replicate 64 (List.replicate 64 0xFF), cv := 5 }
def w239 : MatClass := { m := 64, k := 64, g := 32, form := .int32 }
def w240 : Machine.Acc := {acc1 with form := .int32}
theorem wit_MatrixLanding :
    ((w231.lathe 1).mats = [w232] ∧ w232.landsAt ≤ w231.cycle ∧ matClass w232.fmtA w232.fmtB = some w233 ∧ w232.form = w233.form ∧ w232.a.length = w233.m ∧ w232.b.length = w233.m ∧ acc1 = (w231.lathe 1).a.get w232.acc emptyAcc ∧ (w232.dis = true ∨ acc1.form = w233.form)) ∧
    ((w234.lathe 1).mats = [w235] ∧ w235.landsAt ≤ w234.cycle ∧ matClass w235.fmtA w235.fmtB = some w236 ∧ w235.form = w236.form ∧ w235.a.length = w236.m ∧ w235.b.length = w236.m ∧ acc1 = (w234.lathe 1).a.get w235.acc emptyAcc ∧ (w235.dis = true ∨ acc1.form = w236.form)) ∧
    ((w237.lathe 1).mats = [w238] ∧ w238.landsAt ≤ w237.cycle ∧ matClass w238.fmtA w238.fmtB = some w239 ∧ w238.form = w239.form ∧ w238.a.length = w239.m ∧ w238.b.length = w239.m ∧ w240 = (w237.lathe 1).a.get w238.acc emptyAcc ∧ (w238.dis = true ∨ w240.form = w239.form)) := by
  exact ⟨by decide +kernel, by decide +kernel, by decide +kernel⟩

theorem wit_SpindleDecodeOfEncode :
    encodeSpindle (Instr.addi 3 3 0 8191) = some 18407423#32 := by
  decide +kernel

theorem wit_SpindleEncodeOfDecode :
    decodeSpindle 18407423#32 = Except.ok (Instr.addi 3 3 0 8191) := by
  decide +kernel

theorem wit_SlotDecodeOfEncode :
    (kindOf (Instr.vadd 1 2 3 2) = some SlotKind.v ∧ encodeSlot (Instr.vadd 1 2 3 2) = some 69343744#32) ∧
    (kindOf (Instr.sb 0 3 1) = some SlotKind.s ∧ encodeSlot (Instr.sb 0 3 1) = some 806092801#32) := by
  exact ⟨by decide +kernel, by decide +kernel⟩

def w242 : State := rdy { st := .free }
def w243 : Ctx := { st := .free }
def w244 : State := rdy { st := .running }
def w245 : Ctx := { st := .running }
def w246 : State := rdy { st := .loading }
def w247 : Ctx := { st := .loading }
def w248 : State := rdy { st := .checkpointed }
def w249 : Ctx := { st := .checkpointed }
def w250 : State := rdy { st := .saving }
def w251 : Ctx := { st := .saving }
def w252 : State := rdy { st := .saved }
def w253 : Ctx := { st := .saved }
def w254 : State := rdy { st := .faulted }
def w255 : Ctx := { st := .faulted }
theorem wit_ContextCommands :
    (w242.mgmt.boot = BootSt.ready ∧ 3 = (3#6).toNat ∧ w243 = w242.ctx 3 ∧ 9 = (9#44).toNat ∧ w243.st = CtxSt.free) ∧
    (w244.mgmt.boot = BootSt.ready ∧ 3 = (3#6).toNat ∧ w245 = w244.ctx 3 ∧ 9 = (9#44).toNat ∧ w245.st ≠ CtxSt.free) ∧
    (w244.mgmt.boot = BootSt.ready ∧ 3 = (3#6).toNat ∧ w245 = w244.ctx 3 ∧ 9 = (9#44).toNat ∧ (w245.st = CtxSt.running ∨ w245.st = CtxSt.checkpointed)) ∧
    (w246.mgmt.boot = BootSt.ready ∧ 3 = (3#6).toNat ∧ w247 = w246.ctx 3 ∧ 9 = (9#44).toNat ∧ w247.st ≠ CtxSt.running ∧ w247.st ≠ CtxSt.checkpointed) ∧
    (w248.mgmt.boot = BootSt.ready ∧ 3 = (3#6).toNat ∧ w249 = w248.ctx 3 ∧ 9 = (9#44).toNat ∧ (w249.st = CtxSt.running ∨ w249.st = CtxSt.checkpointed ∨ w249.st = CtxSt.faulted)) ∧
    (w250.mgmt.boot = BootSt.ready ∧ 3 = (3#6).toNat ∧ w251 = w250.ctx 3 ∧ 9 = (9#44).toNat ∧ w251.st ≠ CtxSt.running ∧ w251.st ≠ CtxSt.checkpointed ∧ w251.st ≠ CtxSt.faulted) ∧
    (w252.mgmt.boot = BootSt.ready ∧ 3 = (3#6).toNat ∧ w253 = w252.ctx 3 ∧ 9 = (9#44).toNat ∧ (w253.st = CtxSt.free ∨ w253.st = CtxSt.saved)) ∧
    (w244.mgmt.boot = BootSt.ready ∧ 3 = (3#6).toNat ∧ w245 = w244.ctx 3 ∧ 9 = (9#44).toNat ∧ w245.st ≠ CtxSt.free ∧ w245.st ≠ CtxSt.saved) ∧
    (w252.mgmt.boot = BootSt.ready ∧ 3 = (3#6).toNat ∧ w253 = w252.ctx 3 ∧ 9 = (9#44).toNat ∧ (w253.st = CtxSt.running ∨ w253.st = CtxSt.checkpointed ∨ w253.st = CtxSt.saved ∨ w253.st = CtxSt.faulted)) ∧
    (w246.mgmt.boot = BootSt.ready ∧ 3 = (3#6).toNat ∧ w247 = w246.ctx 3 ∧ 9 = (9#44).toNat ∧ w247.st ≠ CtxSt.running ∧ w247.st ≠ CtxSt.checkpointed ∧ w247.st ≠ CtxSt.saved ∧ w247.st ≠ CtxSt.faulted) ∧
    (w254.mgmt.boot = BootSt.ready ∧ 3 = (3#6).toNat ∧ w255 = w254.ctx 3 ∧ 9 = (9#44).toNat ∧ (w255.st = CtxSt.running ∨ w255.st = CtxSt.checkpointed ∨ w255.st = CtxSt.faulted)) ∧
    (w242.mgmt.boot = BootSt.ready ∧ 3 = (3#6).toNat ∧ w243 = w242.ctx 3 ∧ 9 = (9#44).toNat ∧ (w243.st = CtxSt.free ∨ w243.st = CtxSt.saved)) ∧
    (w254.mgmt.boot = BootSt.ready ∧ 3 = (3#6).toNat ∧ w255 = w254.ctx 3 ∧ 9 = (9#44).toNat ∧ (w255.st = CtxSt.running ∨ w255.st = CtxSt.checkpointed ∨ w255.st = CtxSt.saved ∨ w255.st = CtxSt.faulted)) ∧
    (w248.mgmt.boot = BootSt.ready ∧ 3 = (3#6).toNat ∧ w249 = w248.ctx 3 ∧ 9 = (9#44).toNat ∧ (w249.st = CtxSt.running ∨ w249.st = CtxSt.checkpointed)) := by
  constructorm* _ ∧ _ <;> first
    | decide +kernel

def w256 : State := { at3 { st := .loading, addr := 8, loadAddr := 7, queues := [(2, { ovf := true, entries := [{ rec_ := 64, stamp := 1 }] })] } with hbm := poke 0x2008 8 0x1234 ++ poke 0x3020 8 (2^63 + 5) ++ poke 0x7000 64 (5 * 2^384 + 2 * 2^140 + 16 * 2^12) }
def w257 : Ctx := { st := .loading, addr := 8, loadAddr := 7, queues := [(2, { ovf := true, entries := [{ rec_ := 64, stamp := 1 }] })] }
def w258 : ℕ := 5 * 2^384 + 2 * 2^140 + 16 * 2^12
def w259 : State := at3 { st := .loading, addr := 8, loadAddr := 7 }
def w260 : Ctx := { st := .loading, addr := 8, loadAddr := 7 }
def w261 : State := at3 { st := .saving, saveArea := 0x70000 }
def w262 : Ctx := { st := .saving, saveArea := 0x70000 }
def w263 : ℕ := 0x2010000 + (sectionLengths 0 0).sum
def w264 : State := at3 { st := .saving, saveArea := 2^39-4096 }
def w265 : Ctx := { st := .saving, saveArea := 2^39-4096 }
def w266 : State := at3 { st := .restoring }
def w267 : Ctx := { st := .restoring }
def w268 : State := { at3 { st := .restoring, before := .saved, saveArea := 0x70000 } with images := [{ stamp := 5, area := 0x70000, ctx := 2, compact := false, pieces := [(0, [1, 2])], c := { ptroot := 9, saveb := 4 }, saved := [], cores := [], mesh := [], lathes := [(3, { bound := some 70 })], tiles := [], versions := [], launches := [], bal := [], scalest := [], fifos := [], records := (0, 0) }], lathes := [(3, { bound := some 64 })], hbm := poke 0x70000 2 513 }
def w269 : Ctx := { st := .restoring, before := .saved, saveArea := 0x70000 }
def w270 : Image := { stamp := 5, area := 0x70000, ctx := 2, compact := false, pieces := [(0, [1, 2])], c := { ptroot := 9, saveb := 4 }, saved := [], cores := [], mesh := [], lathes := [(3, { bound := some 70 })], tiles := [], versions := [], launches := [], bal := [], scalest := [], fifos := [], records := (0, 0) }
def w271 : State := { at3 { st := .restoring, before := .saved, saveArea := 0x70000 } with images := [{ stamp := 5, area := 0x70000, ctx := 2, compact := false, pieces := [(0, [1, 2])], c := { ptroot := 9, saveb := 4 }, saved := [], cores := [], mesh := [], lathes := [], tiles := [], versions := [], launches := [], bal := [], scalest := [], fifos := [], records := (0, 0) }], hbm := poke 0x70000 2 513 }
def w272 : Image := { stamp := 5, area := 0x70000, ctx := 2, compact := false, pieces := [(0, [1, 2])], c := { ptroot := 9, saveb := 4 }, saved := [], cores := [], mesh := [], lathes := [], tiles := [], versions := [], launches := [], bal := [], scalest := [], fifos := [], records := (0, 0) }
def w273 : State := { at3 { st := .teardown, addr := 9, saveb := 4 } with slots := [(0, { st := .active, ctx := 3 }), (5, { st := .active, ctx := 4 })] }
def w274 : Ctx := { st := .teardown, addr := 9, saveb := 4 }
theorem wit_ContextEvents :
    (3 = w256.ctl.at_.ctx ∧ w257 = w256.ctx 3 ∧ w257.st = CtxSt.loading ∧ w258 = w256.hbmRead (w257.loadAddr * 4096) 64 ∧ w256.inMap (w257.loadAddr * 4096) 64 = true ∧ w256.poisoned (w257.loadAddr * 4096) 64 = false ∧ w256.descOk w258 = true ∧ 8192 = bitsOf w258 183 140 * 4096) ∧
    (3 = w259.ctl.at_.ctx ∧ w260 = w259.ctx 3 ∧ w260.st = CtxSt.loading ∧ 0 = w259.hbmRead (w260.loadAddr * 4096) 64 ∧ w259.descOk 0 = false) ∧
    (3 = w261.ctl.at_.ctx ∧ w262 = w261.ctx 3 ∧ w262.st = CtxSt.saving ∧ UnitsIdle w261 ∧ w262.spilled = [] ∧ w262.toll = none ∧ w263 = 33619968 + (sectionLengths w261.ctl.free 0).sum) ∧
    (3 = w264.ctl.at_.ctx ∧ w265 = w264.ctx 3 ∧ w265.st = CtxSt.saving ∧ UnitsIdle w264 ∧ w265.spilled = [] ∧ w265.toll = none ∧ w263 = 33619968 + (sectionLengths w264.ctl.free 0).sum) ∧
    (3 = w266.ctl.at_.ctx ∧ w267 = w266.ctx 3 ∧ w267.st = CtxSt.restoring ∧ w266.images = []) ∧
    (3 = w268.ctl.at_.ctx ∧ w269 = w268.ctx 3 ∧ w269.st = CtxSt.restoring ∧ w268.images = [w270] ∧ w268.imageAt w269.saveArea w270 = true ∧ w268.claimsHeld w270 = true) ∧
    (3 = w271.ctl.at_.ctx ∧ w269 = w271.ctx 3 ∧ w269.st = CtxSt.restoring ∧ w271.images = [w272] ∧ w271.imageAt w269.saveArea w272 = true ∧ w271.claimsHeld w272 = false ∧ w272.cores = [] ∧ w272.lathes = [] ∧ w272.tiles = [] ∧ w272.versions = [] ∧ w272.launches = [] ∧ w272.mesh = [] ∧ w272.saved = [] ∧ w272.bal = [] ∧ w272.scalest = [] ∧ w272.fifos = []) ∧
    (3 = w273.ctl.at_.ctx ∧ w274 = w273.ctx 3 ∧ w274.st = CtxSt.teardown ∧ w273.pagesBusy 3 = false ∧ w273.mgmt.spillRes ≠ 1 ∧ (∀ p ∈ w273.cores, p.2.fifo.waiting = []) ∧ (w273.logRecords 3 = [] ∨ w274.budgets.evict = 65535)) := by
  constructorm* _ ∧ _ <;> first
    | decide +kernel
    | (and_intros <;> first | decide +kernel | rfl)
    | (unfold UnitsIdle; decide +kernel)

def w275 : LaunchQueue := {}
def w276 : State := launching {} {}
def w277 : LaunchQueue := { entries := [{ rec_ := 0x80000, stamp := 0 }] }
def w278 : LqEntry := { rec_ := 0x80000, stamp := 0 }
def w279 : State := { launching {} {} with mgmt := { fences := 1 } }
def w280 : State := launching {} { head := some { head0 with met1 := true } }
def w281 : LaunchQueue := { entries := [{ rec_ := 0x80000, stamp := 0 }], head := some { head0 with met1 := true } }
def w282 : LaunchRec := { head0 with met1 := true }
def w283 : State := launching {} { head := some { head0 with met0 := true, met1 := true } }
def w284 : LaunchRec := { head0 with met0 := true, met1 := true }
def w285 : State := { rdy { budgets := { issue := 7, car := 3 } } with cycle := 8192, ctl := { period := 1 }, clusters := [(2, { bal := [(3, { issue := -5, car := 2, link := -1 })] })] }
def w286 : State := { State.reset with cycle := 8193 }
theorem wit_LaunchEvents :
    (w244.mgmt.boot = BootSt.ready ∧ w275 = w244.lqueue (3#6).toNat (2#4).toNat ∧ BitVec.extractLsb' 56 8 524352#64 = 0#8 ∧ BitVec.extractLsb' 0 6 524352#64 = 0#6 ∧ w244.ctxRuns (3#6).toNat = true ∧ w275.entries.length < 64 ∧ w275.parked = []) ∧
    (w244.mgmt.boot = BootSt.ready ∧ w275 = w244.lqueue (3#6).toNat (2#4).toNat ∧ (BitVec.extractLsb' 56 8 524353#64 ≠ 0#8 ∨ BitVec.extractLsb' 0 6 524353#64 ≠ 0#6 ∨ w244.ctxRuns (3#6).toNat = false ∨ 64 ≤ w275.entries.length ∨ w275.parked ≠ [])) ∧
    (w252.mgmt.boot = BootSt.ready ∧ w275 = w252.lqueue (3#6).toNat (2#4).toNat ∧ (BitVec.extractLsb' 56 8 524352#64 ≠ 0#8 ∨ BitVec.extractLsb' 0 6 524352#64 ≠ 0#6 ∨ w252.ctxRuns (3#6).toNat = false ∨ 64 ≤ w275.entries.length ∨ w275.parked ≠ [])) ∧
    (0 = w276.ctl.at_.ctx ∧ 2 = w276.ctl.at_.q ∧ w277 = w276.lqueue 0 2 ∧ w276.ctxRuns 0 = true ∧ w277.en = true ∧ w277.head = none ∧ w277.entries = [w278] ∧ w276.readHead 0 2 w278.rec_ = (w276, CRes.ok (leBytes 192 recN, some (leBytes 64 hdrN))) ∧ head0 = launchOf w278.rec_ (leBytes 192 recN) (leBytes 64 hdrN) ∧ w276.recordOk head0 (leBytes 192 recN) = true ∧ headerOk head0 (leBytes 64 hdrN) = true) ∧
    (0 = w279.ctl.at_.ctx ∧ 2 = w279.ctl.at_.q ∧ w277 = w279.lqueue 0 2 ∧ w279.ctxRuns 0 = true ∧ w277.en = true ∧ w277.head = none ∧ w277.entries = [w278] ∧ w279.readHead 0 2 w278.rec_ = (w279, CRes.ok (leBytes 192 recN, some (leBytes 64 hdrN))) ∧ head0 = launchOf w278.rec_ (leBytes 192 recN) (leBytes 64 hdrN) ∧ w277.parked = [] ∧ (w279.recordOk head0 (leBytes 192 recN) = false ∨ headerOk head0 (leBytes 64 hdrN) = false)) ∧
    (0 = w280.ctl.at_.ctx ∧ 2 = w280.ctl.at_.q ∧ w281 = w280.lqueue 0 2 ∧ w280.ctxRuns 0 = true ∧ w281.head = some w282 ∧ w282.met0 = false ∧ w282.met1 = true ∧ w280.launchRead 0 2 w282.dep0 8 = (w280, CRes.ok (leBytes 8 5))) ∧
    (w283.firstHead = some (0, 2, w284, 0) ∧ (w283.lqueue 0 2).parked = [] ∧ w283.launchReads 0 2 (readPieces 64 (w284.kimg + w284.coff) (4 * w284.csize)) = (w283, CRes.ok (List.replicate 8 0)) ∧ 64 = ((w283.ctx 0).seq + 1) * 64 + 0) ∧
    (w285.cycle % 4096 = 0 ∧ w285.ctl.period < w285.cycle / 4096) ∧
    (w286.cycle % 4096 ≠ 0) := by
  constructorm* _ ∧ _ <;> first
    | decide +kernel

def w287 : State := { State.reset with ctl := { at_ := { core := 9 } }, mesh := [(9, { ctx := 3 })], cores := [(9, { inbox := [{}] })] }
def w288 : Msg := { ctx := 3 }
def w289 : State := { State.reset with ctl := { at_ := { core := 9 } }, cores := [(9, { inbox := [{}], meshWait := [{ ctx := 3 }] })] }
def w290 : State := { rdy { st := .running } with ctl := { at_ := { core := 9 } }, mesh := [(9, { ctx := 3, pc := 0x4000, g := [1,2,3,4,5,6,7,8].map fullReg })] }
def w291 : Msg := { ctx := 3, pc := 0x4000, g := [1,2,3,4,5,6,7,8].map fullReg }
def w292 : State := { rdy { st := .running } with ctl := { at_ := { core := 0 } }, mesh := [(0, { ctx := 3, pc := 0x4000, g := [1,2,3,4,5,6,7,8].map fullReg })], slots := (List.range 16).map (fun k => (k, { st := .active, ctx := 3, tid := k })) }
def w293 : State := { rdy { st := .running } with ctl := { at_ := { core := 9 } }, cores := [(9, { inbox := [{ ctx := 3, pc := 0x4000, g := [1,2,3,4,5,6,7,8].map fullReg }] })] }
def w294 : State := { rdy { st := .running } with ctl := { at_ := { core := 9 } }, launches := [(67, { ctx := 3, q := 0, seq := 1, r := head0 })], cores := [(9, { deque := [{ launch := 67, task := .task 0 0x4000 [1,2,3,4,5,6,7] }] })] }
def w295 : Launch := { ctx := 3, q := 0, seq := 1, r := head0 }
def w296 : State := { rdy { st := .running } with ctl := { at_ := { core := 9 } }, launches := [(67, { ctx := 3, q := 0, seq := 1, r := head0 })], cores := [(9, { deque := [{ launch := 67, task := .range 3 2 }] })] }
def w297 : State := { rdy { st := .running, budgets := { issue := 0xFFFF } } with ctl := { at_ := { core := 9 } }, launches := [(67, { ctx := 3, q := 0, seq := 1, r := head0 })], cores := [(9, { }), (10, { winOwner := some 67, deque := [{ launch := 67, task := .range 3 5 }] })] }
def w298 : Core := {}
def w299 : State := { rdy { st := .running, budgets := { issue := 0xFFFF } } with ctl := { at_ := { core := 9 } }, launches := [], cores := [(9, { probe := 1021 })] }
def w300 : Core := { probe := 1021 }
def w301 : State := { rdy { st := .running, saveb := 2 } with cycle := 5000, ctl := { at_ := { core := 0 } }, cores := [(0, { inbox := [{ ctx := 3, pc := 0x4000, g := [1,2,3,4,5,6,7,8].map fullReg }], headSince := some 904 })], slots := (List.range 16).map (fun k => (k, { st := .parkedWait, ctx := 3, tid := k, parkedAt := 100 - k, wait := .bar (2 * 2^61 + 2^37) 0 })) }
def w302 : State := { rdy { st := .running, spilled := [(7, { addr := 0x30000, core := 9, slot := 2, rest := { st := .parkedWait, wait := .bar (2 * 2^61 + 2^37) 5 } })] } with ctl := { at_ := { ctx := 3, tid := 7 } } }
def w303 : Spilled := { addr := 0x30000, core := 9, slot := 2, rest := { st := .parkedWait, wait := .bar (2 * 2^61 + 2^37) 5 } }
def w304 : State := { rdy { st := .running, saveb := 2 } with slots := [(146, { st := .parkedWait, ctx := 3, tid := 7, wait := .bar 0 0, regs := [(3, full 9)] })] }
def w305 : State := { rdy { st := .running, saveb := 2 } with slots := [(146, { st := .active, ctx := 3, tid := 7, hnd := true })] }
def w306 : State := { rdy { st := .running, spilled := [(7, { addr := 0x30000, core := 9, slot := 2, rest := { st := .parkedWait } })] } with slots := [] }
def w307 : Spilled := { addr := 0x30000, core := 9, slot := 2, rest := { st := .parkedWait } }
theorem wit_MessageEvents :
    (9 = w287.ctl.at_.core ∧ (((waiting w287 9).any fun x => !w287.held x.ctx) = true) ∧ (32 ≤ (w287.core 9).inbox.length ∨ (w287.core 9).ring = []) ∧ w287.ringRoom 9 w288 = true ∧ (∀ p ∈ w287.slots, p.2.wait ≠ Wait.send w288.stamp) ∧ (∀ p ∈ w287.clusters, p.2.xfers = []) ∧ w287.mesh = [(9, w288)] ∧ (w287.core 9).meshWait = []) ∧
    (9 = w289.ctl.at_.core ∧ (((waiting w289 9).any fun x => !w289.held x.ctx) = true) ∧ (32 ≤ (w289.core 9).inbox.length ∨ (w289.core 9).ring = []) ∧ w289.ringRoom 9 w288 = true ∧ (∀ p ∈ w289.slots, p.2.wait ≠ Wait.send w288.stamp) ∧ (∀ p ∈ w289.clusters, p.2.xfers = []) ∧ (w289.core 9).meshWait = [w288]) ∧
    (9 = w290.ctl.at_.core ∧ w290.mesh = [(9, w291)] ∧ waiting w290 9 = [] ∧ (w290.core 9).meshWait = [] ∧ w290.ringRoom 9 w291 = true ∧ (∀ p ∈ w290.slots, p.2.wait ≠ Wait.send w291.stamp) ∧ (∀ p ∈ w290.clusters, p.2.xfers = []) ∧ w290.freeSlots 9 ≠ [] ∧ w290.held w291.ctx = false ∧ w291.kind = MsgKind.send ∧ w291.hyp = 0 ∧ w291.trap = none ∧ [1, 2, 3, 4, 5, 6, 7, 8].length = 8 ∧ w291.g = List.map fullReg [1, 2, 3, 4, 5, 6, 7, 8] ∧ w290.newTid w291.ctx (9 / 16) = some 0) ∧
    (0 = w292.ctl.at_.core ∧ w292.mesh = [(0, w291)] ∧ waiting w292 0 = [] ∧ (w292.core 0).meshWait = [] ∧ w292.ringRoom 0 w291 = true ∧ (∀ p ∈ w292.slots, p.2.wait ≠ Wait.send w291.stamp) ∧ (∀ p ∈ w292.clusters, p.2.xfers = []) ∧ w292.freeSlots 0 = []) ∧
    (9 = w293.ctl.at_.core ∧ w293.freeSlots 9 ≠ [] ∧ (w293.core 9).inbox = [w291] ∧ (w293.core 9).ring = [] ∧ w293.held w291.ctx = false ∧ w291.kind = MsgKind.send ∧ w291.hyp = 0 ∧ w291.trap = none ∧ [1, 2, 3, 4, 5, 6, 7, 8].length = 8 ∧ w291.g = List.map fullReg [1, 2, 3, 4, 5, 6, 7, 8] ∧ w293.newTid w291.ctx (9 / 16) = some 0) ∧
    (9 = w294.ctl.at_.core ∧ w294.freeSlots 9 ≠ [] ∧ w294.messageWaits 9 = false ∧ w294.launches.find? 67 = some w295 ∧ w294.ctxRuns w295.ctx = true ∧ w294.newTid w295.ctx (9 / 16) = some 0 ∧ [1, 2, 3, 4, 5, 6, 7].length = 7 ∧ (w294.core 9).deque = [{ launch := 67, task := Task.task 0 16384 [1, 2, 3, 4, 5, 6, 7] }]) ∧
    (9 = w296.ctl.at_.core ∧ w296.freeSlots 9 ≠ [] ∧ w296.messageWaits 9 = false ∧ w296.launches.find? 67 = some w295 ∧ w296.ctxRuns w295.ctx = true ∧ w296.newTid w295.ctx (9 / 16) = some 0 ∧ (w296.core 9).deque = [{ launch := 67, task := Task.range 3 2 }] ∧ 1 < 2 ∧ w295.r.args.length = 6) ∧
    (9 = w297.ctl.at_.core ∧ w298 = w297.core 9 ∧ w297.idleCore 9 = true ∧ 10 = victimOf 9 w298.probe ∧ 10 ≠ 9 ∧ (w297.core 10).deque = [] ++ [{ launch := 67, task := Task.range 3 5 }] ∧ 1 < 5 ∧ w297.launches.find? 67 = some w295 ∧ (w297.core 10).poppedAt ≠ some w297.cycle ∧ (w298.winOwner = none ∨ w298.winOwner = some 67) ∧ (w297.core 10).winOwner = some 67 ∧ 5 = splitPoint w295.r.exts 3 5) ∧
    (9 = w299.ctl.at_.core ∧ w300 = w299.core 9 ∧ w299.idleCore 9 = true ∧ victimOf 9 1021 = victimOf 9 w300.probe ∧ (w299.core (victimOf 9 1021)).deque = [] ∧ w300.probe + 1 < 1023) ∧
    (0 = w301.ctl.at_.core ∧ w301.freeSlots 0 = [] ∧ (w301.core 0).headSince = some 904 ∧ 904 + 4096 ≤ w301.cycle ∧ w301.longestParked 0 = some 15 ∧ Spillable w301 15) ∧
    (3 = w302.ctl.at_.ctx ∧ 7 = w302.ctl.at_.tid ∧ (w302.ctx 3).spilled.find? 7 = some w303 ∧ w303.onCommand = false ∧ w303.sent = false ∧ w302.ctxRuns 3 = true ∧ w302.spillOver 3 7 w303 = (w302, true)) ∧
    (w304.mgmt.boot = BootSt.ready ∧ w304.mgmt.spillRes ≠ 1 ∧ 146 = 16 * (9#12).toNat + (2#4).toNat ∧ ((w304.slot 146).st = SlotSt.active ∨ (w304.slot 146).st = SlotSt.parkedReg ∨ (w304.slot 146).st = SlotSt.parkedWait) ∧ (w304.slot 146).ctx = (3#6).toNat ∧ (w304.slot 146).hnd = false ∧ Spillable w304 146) ∧
    (w305.mgmt.boot = BootSt.ready ∧ w305.mgmt.spillRes ≠ 1 ∧ 146 = 16 * (9#12).toNat + (2#4).toNat ∧ ((w305.slot 146).st = SlotSt.free ∨ (w305.slot 146).st = SlotSt.migrating ∨ (w305.slot 146).ctx ≠ (3#6).toNat ∨ (w305.slot 146).hnd = true)) ∧
    (w306.mgmt.boot = BootSt.ready ∧ w306.mgmt.spillRes ≠ 1 ∧ 146 = 16 * (9#12).toNat + (2#4).toNat ∧ (w306.ctx (3#6).toNat).spilled.find? (7#16).toNat = some w307 ∧ w307.sent = false ∧ w306.held (3#6).toNat = false) ∧
    (w244.mgmt.boot = BootSt.ready ∧ w244.mgmt.spillRes ≠ 1 ∧ 146 = 16 * (9#12).toNat + (2#4).toNat ∧ (w244.ctx (3#6).toNat).spilled.find? (7#16).toNat = none) := by
  constructorm* _ ∧ _ <;> first
    | decide +kernel
    | (unfold Spillable; and_intros <;> first | decide +kernel | exact nofun)

def w309 : Slot := { st := .active, pc := 0x80000, fills := [{ reg := 3, v := 9, dep := 4 }] }
def w308 : State := { one { fills := [{ reg := 3, v := 9, dep := 4 }] } with ctl := { at_ := { reg := 3 } } }
def w310 : Fill := { reg := 3, v := 9, dep := 4 }
def w312 : Slot := { st := .parkedReg, awaiting := [3], regs := [(3, { st := .pending })], fills := [{ reg := 3, v := 9, dep := 4 }] }
def w311 : State := { one {} with ctl := { at_ := { reg := 3 } }, slots := [(0, { st := .parkedReg, awaiting := [3], regs := [(3, { st := .pending })], fills := [{ reg := 3, v := 9, dep := 4 }] })] }
def w314 : Slot := { st := .parkedWait, wait := .bar (2 * 2^61 + 2^37) 5 }
def w313 : State := { one {} with slots := [(0, { st := .parkedWait, wait := .bar (2 * 2^61 + 2^37) 5 })] }
def w315 : Word64 := 2 * 2^61 + 2^37
def w317 : Slot := { st := .parkedWait, wait := .bar (2 * 2^61 + 2^37) 0 }
def w316 : State := { one {} with slots := [(0, { st := .parkedWait, wait := .bar (2 * 2^61 + 2^37) 0 })] }
def w319 : Slot := { st := .parkedWait, wait := .nwait 0x80008 5 2 }
def w318 : State := { data [] with slots := [(0, { st := .parkedWait, wait := .nwait 0x80008 5 2 })], slices := [(homeSlice 0x80008, { waiters := [{ who := .slot 0, pa := 0x80008, seen := 9, met := true }] })] }
def w320 : WaitEntry := { who := .slot 0, pa := 0x80008, seen := 9, met := true }
def w322 : Slot := { st := .parkedWait, wait := .nwait spVa 5 2 }
def w321 : State := { data [] with slots := [(0, { st := .parkedWait, wait := .nwait spVa 5 2 })] }
def w323 : State := { one { tid := 7 } with cores := [(0, { directWrites := [{ tid := 7, ctx := 0, reg := 3, v := 99, from_ := .slot 16 2 }] })] }
def w324 : Core := { directWrites := [{ tid := 7, ctx := 0, reg := 3, v := 99, from_ := .slot 16 2 }] }
def w325 : DirectWrite := { tid := 7, ctx := 0, reg := 3, v := 99, from_ := .slot 16 2 }
def w326 : State := { one { tid := 7, regs := [(3, full 1)] } with slots := [(0, { st := .active, tid := 7, regs := [(3, full 1)] }), (16, { st := .active, tid := 2, rfref := 65535 })], cores := [(0, { directWrites := [{ tid := 7, ctx := 0, reg := 3, v := 99, from_ := .slot 16 2 }] })] }
def w327 : State := { data [] with cycle := 5000, cores := [(0, { l1 := [{ addr := 0, ctx := 0, hyp := 0, filled := 904, bytes := [] }, { addr := 32, ctx := 0, hyp := 0, filled := 905, bytes := [] }], gather := [{ tgt := 0, block := 0x80000, ctx := 0, hyp := 0, bytes := [(3, (7, 0)), (5, (0, 0))], mergedAt := 4 }] })] }
def w328 : State := { data [] with cores := [(0, { gather := [{ tgt := 0, block := 0x80000, ctx := 0, hyp := 0, bytes := [(3, (7, 0)), (5, (0, 0))], mergedAt := 4 }] })] }
def w329 : GatherEntry := { tgt := 0, block := 0x80000, ctx := 0, hyp := 0, bytes := [(3, (7, 0)), (5, (0, 0))], mergedAt := 4 }
def w330 : State := { data [] with cores := [(0, { gather := [{ tgt := 1, block := 0x100000, ctx := 0, hyp := 0, bytes := [(3, (7, 0)), (5, (0, 0))], mergedAt := 4 }] })] }
def w331 : GatherEntry := { tgt := 1, block := 0x100000, ctx := 0, hyp := 0, bytes := [(3, (7, 0)), (5, (0, 0))], mergedAt := 4 }
def w332 : State := { hypAt { unitQ := [.hnew 0 6 0], hyps := [(1, { st := .live })] } with slots := [(0, { st := .active, regs := [(3, { st := .pending })], fills := [{ reg := 3, src := .hypUnit 6 }] })] }
def w333 : Ctx := { st := .running, saveb := 1, unitQ := [.hnew 0 6 0], hyps := [(1, { st := .live })] }
def w334 : State := hypAt { unitQ := [.hconf 0 2], hyps := [(1, { st := .live }), (2, { st := .live }), (3, { st := .live, parent := 1 })] }
def w335 : Ctx := { st := .running, saveb := 1, unitQ := [.hconf 0 2], hyps := [(1, { st := .live }), (2, { st := .live }), (3, { st := .live, parent := 1 })] }
def w336 : State := hypAt { unitQ := [.href 0 1], hyps := [(1, { st := .live }), (2, { st := .live }), (3, { st := .live, parent := 1 })] }
def w337 : Ctx := { st := .running, saveb := 1, unitQ := [.href 0 1], hyps := [(1, { st := .live }), (2, { st := .live }), (3, { st := .live, parent := 1 })] }
def w338 : State := { hypAt { toll := some { confirm := some 2, refute := [], slot := 0 }, hyps := [(2, { st := .merging })] } with slices := [(4, { dir := [{ ctx := 0, id := 2, sector := 0x3000, mask := 5, bytes := List.replicate 32 9 }] })], slots := [(0, { st := .parkedWait, wait := .resolve 2 true }), (3, { st := .active, hyp := 2, tid := 5 })] }
def w339 : Ctx := { st := .running, saveb := 1, toll := some { confirm := some 2, refute := [], slot := 0 }, hyps := [(2, { st := .merging })] }
def w340 : Version := { ctx := 0, id := 2, sector := 0x3000, mask := 5, bytes := List.replicate 32 9 }
def w341 : State := { hypAt { toll := some { confirm := none, refute := [2], slot := 0 }, hyps := [(2, { st := .refuting })] } with slots := [(0, { st := .parkedWait, wait := .resolve 2 false }), (3, { st := .active, hyp := 2, tid := 5 })] }
def w342 : Ctx := { st := .running, saveb := 1, toll := some { confirm := none, refute := [2], slot := 0 }, hyps := [(2, { st := .refuting })] }
def w344 : Slot := { st := .orphaned, hyp := 2, tid := 9, regs := low 50 ++ [(9, full 3)] }
def w343 : State := { one {} with ctxs := [(0, { st := .running, ovec := 0x4000, hyps := [(2, { st := .dead, heir := 0 })] })], slots := [(0, { st := .orphaned, hyp := 2, tid := 9, regs := low 50 ++ [(9, full 3)] })] }
def w345 : Ctx := { st := .running, ovec := 0x4000, hyps := [(2, { st := .dead, heir := 0 })] }
def w346 : State := { one {} with ctxs := [(0, { st := .running, tids := [9], hyps := [(2, { st := .dead, heir := 0 })] })], slots := [(0, { st := .orphaned, hyp := 2, tid := 9, regs := low 50 ++ [(9, full 3)] })] }
def w347 : Ctx := { st := .running, tids := [9], hyps := [(2, { st := .dead, heir := 0 })] }
def w348 : State := { tiled { st := .open_, vcnt := 3, chimeAt := some 99 } [] with cycle := 99, ctl := { at_ := { idx := 2 } } }
def w349 : State := { tiled { st := .consumed, returnLate := true } [] with cycle := 99, ctl := { at_ := { idx := 2 } }, slots := [(8, { st := .parkedWait, wait := .tret 2 5 })] }
def w351 : Slot := { st := .parkedWait, wait := .nwait spVa 0xFFFFFFFFFFFFFFFF 2 }
def w350 : State := { data [] with slots := [(0, { st := .parkedWait, wait := .nwait spVa 0xFFFFFFFFFFFFFFFF 2 })] }
theorem wit_SlotEvents :
    (w309 = w308.cur ∧ w308.mgmt.spillRes ≠ 1 ∧ w309.fills = [w310] ∧ w310.reg = w308.ctl.at_.reg ∧ w310.src = FillSrc.ready ∧ w310.fault = none ∧ w309.leaving = false ∧ w309.wait = Wait.none) ∧
    (w312 = w311.cur ∧ w311.mgmt.spillRes ≠ 1 ∧ w312.fills = [w310] ∧ w310.reg = w311.ctl.at_.reg ∧ w310.src = FillSrc.ready ∧ w310.fault = none ∧ w312.leaving = false ∧ w312.wait = Wait.none) ∧
    (w314 = w313.cur ∧ w313.mgmt.spillRes ≠ 1 ∧ w314.st = SlotSt.parkedWait ∧ w314.wait = Wait.bar w315 5#64 ∧ (5#64).toNat % 2 ^ 16 ≠ (w313.barrier w313.coreNo (BitVec.toNat w315)).phase ∧ w313.ctl.at_.slot < 16) ∧
    (w317 = w316.cur ∧ w316.mgmt.spillRes ≠ 1 ∧ w317.st = SlotSt.parkedWait ∧ w317.wait = Wait.bar w315 0#64 ∧ (0#64).toNat % 2 ^ 16 = (w316.barrier w316.coreNo (BitVec.toNat w315)).phase ∧ w316.ctl.at_.slot < 16) ∧
    (w319 = w318.cur ∧ w318.mgmt.spillRes ≠ 1 ∧ w319.st = SlotSt.parkedWait ∧ w319.wait = Wait.nwait 524296 (5#64) 2 ∧ w318.ctl.at_.slot < 16 ∧ w318.key ∉ w319.yieldFor ∧ WaitersHomed w318 ∧ w318.resolve w318.key 524296 Acc3.read = Res.at_ (Tgt.hbm w320.pa) ∧ w320 ∈ (w318.slice (homeSlice w320.pa)).waiters ∧ w320.who = Watcher.slot w318.key ∧ w320.met = true) ∧
    (w322 = w321.cur ∧ w321.mgmt.spillRes ≠ 1 ∧ w322.st = SlotSt.parkedWait ∧ w322.wait = Wait.nwait spVa (5#64) 2 ∧ w321.ctl.at_.slot < 16 ∧ w321.key ∉ w322.yieldFor ∧ windowOf spVa = Window3.scratch 24576 ∧ 24576 = spAddr (w321.coreNo / 16) 24576 ∧ w321.spPoisoned 24576 8 = false ∧ w321.views = [] ∧ w321.links.reqs = [] ∧ w321.links.egress = [] ∧ w321.waiterOf (Watcher.slot w321.key) = [] ∧ (5#64).toNat ≤ leNat (w321.sp.readBytes 24576 8)) ∧
    (0 = w323.ctl.at_.core ∧ w324 = w323.core 0 ∧ w324.directWrites = [w325] ∧ w323.directSlot 0 w325 = some 0 ∧ w323.directLater 0 w325 = false ∧ ((w323.slot 0).reg w325.reg).st = RegState.empty ∧ (∃ j tid, w325.from_ = DwSrc.slot j tid)) ∧
    (0 = w326.ctl.at_.core ∧ w324 = w326.core 0 ∧ w324.directWrites = [w325] ∧ w326.directSlot 0 w325 = some 0 ∧ w326.directLater 0 w325 = false ∧ ((w326.slot 0).reg w325.reg).st ≠ RegState.empty ∧ w325.from_ = DwSrc.slot 16 2 ∧ (w326.slot 16).st ≠ SlotSt.free ∧ (w326.slot 16).tid = 2 ∧ (w326.slot 16).ctx = w325.ctx) ∧
    (0 = w327.ctl.at_.core) ∧
    (0 = w328.ctl.at_.core ∧ (w328.core 0).gather = [w329] ∧ (List.Pairwise (fun p q => p.1 < q.1) w329.bytes) ∧ w329.hyp = 0 ∧ w329.tgt < 2) ∧
    (0 = w330.ctl.at_.core ∧ (w330.core 0).gather = [w331] ∧ (List.Pairwise (fun p q => p.1 < q.1) w331.bytes) ∧ w331.hyp = 0 ∧ w331.tgt < 2) ∧
    (0 = w332.ctl.at_.ctx ∧ w333 = w332.ctx 0 ∧ w333.unitQ = [HypReq.hnew 0 6 0] ∧ (w333.hyp 0).st = HypSt.live ∧ 1 ≤ 2 ∧ 2 ≤ 255 ∧ (w333.hyp 2).st = HypSt.free ∧ (∀ (j : ℕ), 1 ≤ j → j < 2 → (w333.hyp j).st ≠ HypSt.free)) ∧
    (0 = w334.ctl.at_.ctx ∧ w335 = w334.ctx 0 ∧ w335.unitQ = [HypReq.hconf 0 2] ∧ w335.toll = none ∧ 2 ≠ 0 ∧ (w335.hyp 2).st = HypSt.live ∧ (w335.hyp 2).parent = 0) ∧
    (0 = w336.ctl.at_.ctx ∧ w337 = w336.ctx 0 ∧ w337.unitQ = [HypReq.href 0 1] ∧ w337.toll = none ∧ 1 ≠ 0 ∧ (w337.hyp 1).st = HypSt.live) ∧
    (0 = w338.ctl.at_.ctx ∧ w339 = w338.ctx 0 ∧ 2 ≠ 0 ∧ w338.cores = [] ∧ w338.logRecords 0 = [] ∧ (w338.slot 0).st = SlotSt.parkedWait ∧ (w338.slot 0).hyp = 0 ∧ (w338.slot 0).ctx = 0 ∧ (∀ p ∈ w338.slots, p.2.ctx = 0 → p.2.tid = (w338.slot 0).tid → p.1 = 0) ∧ (∃ b, (w338.slot 0).wait = Wait.resolve 2 b) ∧ (w339.hyps.find? 2).isSome = true ∧ w339.toll = some { confirm := some 2, refute := [], slot := 0, tid := (w338.slot 0).tid } ∧ w338.slices = [(4, { dir := [w340] })] ∧ w340.ctx = 0 ∧ w340.id = 2) ∧
    (0 = w341.ctl.at_.ctx ∧ w342 = w341.ctx 0 ∧ 2 ≠ 0 ∧ w341.cores = [] ∧ w341.logRecords 0 = [] ∧ (w341.slot 0).st = SlotSt.parkedWait ∧ (w341.slot 0).hyp = 0 ∧ (w341.slot 0).ctx = 0 ∧ (∀ p ∈ w341.slots, p.2.ctx = 0 → p.2.tid = (w341.slot 0).tid → p.1 = 0) ∧ (∃ b, (w341.slot 0).wait = Wait.resolve 2 b) ∧ (w342.hyps.find? 2).isSome = true ∧ w342.toll = some { confirm := none, refute := [2], slot := 0, tid := (w341.slot 0).tid } ∧ w341.slices = []) ∧
    (w344 = w343.cur ∧ w345 = w343.ctx w344.ctx ∧ w344.st = SlotSt.orphaned ∧ w343.ctl.at_.slot < 16 ∧ w345.ovec ≠ 0) ∧
    (w344 = w346.cur ∧ w347 = w346.ctx w344.ctx ∧ w344.st = SlotSt.orphaned ∧ w346.ctl.at_.slot < 16 ∧ w347.ovec = 0 ∧ w344.fills = [] ∧ w344.launch = none) ∧
    (2 = tileKey w348.ctl.at_.cluster w348.ctl.at_.idx ∧ (w348.tile 2).st = TileSt.open_ ∧ (w348.tile 2).chimeAt = some 99 ∧ 99 ≤ w348.cycle ∧ (w348.tile 2).postAfter ≤ w348.cycle ∧ w348.boundIn (w348.latheOf 2) (w348.tile 2).ctx = true ∧ (w348.lathe (w348.latheOf 2)).hq.length < 64 ∧ (w348.lathe (w348.latheOf 2)).hqWait = []) ∧
    (2 = tileKey w349.ctl.at_.cluster w349.ctl.at_.idx ∧ (w349.tile 2).returnLate = true ∧ w349.tileRead 2 = false) ∧
    (w351 = w350.cur ∧ w350.mgmt.spillRes ≠ 1 ∧ w351.st = SlotSt.parkedWait ∧ w351.wait = Wait.nwait spVa (18446744073709551615#64) 2 ∧ w350.ctl.at_.slot < 16 ∧ w350.key ∉ w351.yieldFor ∧ windowOf spVa = Window3.scratch 24576 ∧ 24576 = spAddr (w350.coreNo / 16) 24576 ∧ w350.spPoisoned 24576 8 = false ∧ w350.views = [] ∧ w350.links.reqs = [] ∧ w350.links.egress = [] ∧ w350.waiterOf (Watcher.slot w350.key) = [] ∧ leNat (w350.sp.readBytes 24576 8) < (18446744073709551615#64).toNat) := by
  constructorm* _ ∧ _ <;> first
    | decide +kernel
    | (and_intros <;> first | decide +kernel)
    | (and_intros <;> first | decide +kernel | exact ⟨16, 2, rfl⟩)
    | (unfold WaitersHomed; and_intros <;> first | decide +kernel | exact oneSlice rfl (by decide +kernel))

def w352 : State := paged 0x10000F { regs := [(1, full 0x80123)] } {}
def w353 : State := paged 0x10000F { regs := [(1, full 0x80123)] } { pins := [(pinKey 3 0x80123, 65534)] }
def w354 : State := paged 0x10000F { regs := [(1, full 0x80123)] } { pins := [(pinKey 3 0x80123, 2)] }
def w355 : State := paged 0x10000F {} {}
def w356 : Ctx := { st := .running, saveb := 1, ptroot := 0x10 }
def w357 : State := paged 0x10004F {} { pins := [(pinKey 3 0x80123, 2)] }
def w358 : Ctx := { st := .running, saveb := 1, ptroot := 0x10, pins := [(pinKey 3 0x80123, 2)] }
def w359 : State := paged 0x10004F {} {}
def w360 : State := paged 0x10004F {} { frames := List.range 256 }
def w361 : Ctx := { st := .running, saveb := 1, ptroot := 0x10, frames := List.range 256 }
def w362 : State := paged 0x10004F {} { inv := [some 1] }
def w363 : Ctx := { st := .running, saveb := 1, ptroot := 0x10, inv := [some 1] }
def w364 : State := paged 0x10004F {} { inv := [none] }
def w365 : Ctx := { st := .running, saveb := 1, ptroot := 0x10, inv := [none] }
def w366 : State := { paged 0x10002F {} {} with slots := [(0, { st := .parkedWait, wait := .walk 0 1 })], dies := [(0, { walks := [{ ctx := 0, vpn := 1, reqs := [{ who := .slot 0, cluster := 0, va := 0x80123, faddr := 0x80123, acc := .write, user := true }] }] })] }
def w367 : Walk := { ctx := 0, vpn := 1, reqs := [{ who := .slot 0, cluster := 0, va := 0x80123, faddr := 0x80123, acc := .write, user := true }] }
def w368 : WalkReq := { who := .slot 0, cluster := 0, va := 0x80123, faddr := 0x80123, acc := .write, user := true }
def w369 : State := paged 0x10004E {} { pages := [(1, { st := .filling, frame := some 4, entry := 0x14008 })] }
def w370 : Ctx := { st := .running, saveb := 1, ptroot := 0x10, pages := [(1, { st := .filling, frame := some 4, entry := 0x14008 })] }
def w371 : MPage := { st := .filling, frame := some 4, entry := 0x14008 }
def w372 : State := paged 0x10004F {} { pages := [(1, { st := .evicting, forPevict := true, entry := 0x14008 })] }
def w373 : Ctx := { st := .running, saveb := 1, ptroot := 0x10, pages := [(1, { st := .evicting, forPevict := true, entry := 0x14008 })] }
def w374 : MPage := { st := .evicting, forPevict := true, entry := 0x14008 }
def w375 : State := paged 0x10044F {} { pages := [(1, { st := .evicting, forPevict := true, entry := 0x14008 })] }
def w376 : State := paged 0x10004E {} { pages := [(1, { st := .writing, frame := some 2, forPevict := true, entry := 0x14008 })] }
def w377 : Ctx := { st := .running, saveb := 1, ptroot := 0x10, pages := [(1, { st := .writing, frame := some 2, forPevict := true, entry := 0x14008 })] }
def w378 : MPage := { st := .writing, frame := some 2, forPevict := true, entry := 0x14008 }
theorem wit_PageEvents :
    (524579 = BitVec.toNat (w352.gr 1#5) % 2 ^ 56 ∧ windowOf 524579 = Window3.global ∧ w352.walk w352.cur.ctx 524579 = WalkRes.leaf 3 81928 1048591 ∧ (w352.ctx w352.cur.ctx).pages = [] ∧ w352.walkBusy (w352.coreNo / 1024) w352.cur.ctx 524579 = false ∧ w352.cur.pfx = none ∧ Ready w352 (Instr.pin 3#5 1#5 0#1) [1#5] [3#5] ∧ (w352.ctx w352.cur.ctx).pins.get (pinKey 3 524579) 0 < 65535 ∧ List.length (w352.ctx w352.cur.ctx).pins < 4096) ∧
    (524579 = BitVec.toNat (w353.gr 1#5) % 2 ^ 56 ∧ windowOf 524579 = Window3.global ∧ w353.walk w353.cur.ctx 524579 = WalkRes.leaf 3 81928 1048591 ∧ (w353.ctx w353.cur.ctx).pages = [] ∧ w353.walkBusy (w353.coreNo / 1024) w353.cur.ctx 524579 = false ∧ w353.cur.pfx = none ∧ Ready w353 (Instr.pin 3#5 1#5 0#1) [1#5] [3#5] ∧ (w353.ctx w353.cur.ctx).pins.get (pinKey 3 524579) 0 < 65535 ∧ List.length (w353.ctx w353.cur.ctx).pins < 4096) ∧
    (524579 = BitVec.toNat (w354.gr 1#5) % 2 ^ 56 ∧ windowOf 524579 = Window3.global ∧ w354.walk w354.cur.ctx 524579 = WalkRes.leaf 3 81928 1048591 ∧ (w354.ctx w354.cur.ctx).pages = [] ∧ w354.walkBusy (w354.coreNo / 1024) w354.cur.ctx 524579 = false ∧ w354.cur.pfx = none ∧ Ready w354 (Instr.unpin 3#5 1#5 0#1) [1#5] [3#5] ∧ 1 < (w354.ctx w354.cur.ctx).pins.get (pinKey 3 524579) 0) ∧
    (524579 = BitVec.toNat (w352.gr 1#5) % 2 ^ 56 ∧ windowOf 524579 = Window3.global ∧ w352.walk w352.cur.ctx 524579 = WalkRes.leaf 3 81928 1048591 ∧ (w352.ctx w352.cur.ctx).pages = [] ∧ w352.walkBusy (w352.coreNo / 1024) w352.cur.ctx 524579 = false ∧ w352.cur.pfx = none ∧ Ready w352 (Instr.unpin 3#5 1#5 0#1) [1#5] [3#5] ∧ (w352.ctx w352.cur.ctx).pins.find? (pinKey 3 524579) = none) ∧
    (w355.mgmt.boot = BootSt.ready ∧ 0 = (0#6).toNat ∧ w356 = w355.ctx 0) ∧
    (w355.mgmt.boot = BootSt.ready ∧ 0 = (0#6).toNat ∧ w356 = w355.ctx 0 ∧ w355.residentEntry 0 (1#37).toNat = none) ∧
    (w357.mgmt.boot = BootSt.ready ∧ 0 = (0#6).toNat ∧ w358 = w357.ctx 0 ∧ w357.residentEntry 0 (1#37).toNat = some (81928, 1048655) ∧ (w357.mpage 0 (1#37).toNat).st ≠ PageSt.evicting ∧ w357.eligible 81928 1048655 = false) ∧
    (w359.mgmt.boot = BootSt.ready ∧ 0 = (0#6).toNat ∧ w356 = w359.ctx 0 ∧ w359.residentEntry 0 (1#37).toNat = some (81928, 1048655) ∧ (w359.mpage 0 (1#37).toNat).st ≠ PageSt.evicting ∧ w359.eligible 81928 1048655 = true) ∧
    (w359.mgmt.boot = BootSt.ready ∧ 0 = (0#6).toNat ∧ w356 = w359.ctx 0 ∧ w356.pages = [] ∧ w356.frames.length < 256 ∧ w359.inMap ((4#35).toNat * 2 ^ 19) (2 ^ 19) = true) ∧
    (w359.mgmt.boot = BootSt.ready ∧ 0 = (0#6).toNat ∧ w356 = w359.ctx 0 ∧ (256 ≤ w356.frames.length ∨ w359.inMap ((1048576#35).toNat * 2 ^ 19) (2 ^ 19) = false)) ∧
    (w360.mgmt.boot = BootSt.ready ∧ 0 = (0#6).toNat ∧ w361 = w360.ctx 0 ∧ (256 ≤ w361.frames.length ∨ w360.inMap ((1#35).toNat * 2 ^ 19) (2 ^ 19) = false)) ∧
    (0 = w362.ctl.at_.ctx ∧ w363 = w362.ctx 0 ∧ some 1 ∈ w363.inv ∧ BuffersEmpty w362 ∧ w362.accessesAhead 0 = false) ∧
    (0 = w364.ctl.at_.ctx ∧ w365 = w364.ctx 0 ∧ none ∈ w365.inv ∧ BuffersEmpty w364 ∧ w364.accessesAhead 0 = false) ∧
    (0 = w366.ctl.at_.ctx ∧ w356 = w366.ctx 0 ∧ 1 = w366.ctl.at_.vpn ∧ 0 = w366.ctl.at_.die ∧ (w366.die 0).walks = [w367] ∧ w367.ctx = 0 ∧ w367.vpn = 1 ∧ w367.reqs = [w368] ∧ w368.who = Waiter.slot 0 ∧ w368.kind = WalkKind.access ∧ (w366.slot 0).wait = Wait.walk 0 1 ∧ w366.walk 0 (1 * 2 ^ 19) = WalkRes.leaf 3 81928 1048623 ∧ w366.pageAt 81928 PageSt.evicting = none ∧ List.length (w366.cluster w368.cluster).tlb < 2048 ∧ leafCheck (pteSv 1048623) (pteW 1048623) (pteX 1048623) w368.acc w368.user false = none) ∧
    (0 = w369.ctl.at_.ctx ∧ w370 = w369.ctx 0 ∧ 1 = w369.ctl.at_.vpn ∧ w370.pages = [(1, w371)] ∧ w370.frames.length < 256 ∧ w371.st = PageSt.filling ∧ w371.frame = some 4 ∧ (w371.entry + 8 ≤ 4 * 2 ^ 19 ∨ (4 + 1) * 2 ^ 19 ≤ w371.entry) ∧ (∀ q ∈ w369.slots, q.2.fills = []) ∧ (∀ q ∈ w369.dies, q.2.walks = [])) ∧
    (0 = w372.ctl.at_.ctx ∧ w373 = w372.ctx 0 ∧ 1 = w372.ctl.at_.vpn ∧ w373.pages = [(1, w374)] ∧ w373.frames.length < 256 ∧ w374.st = PageSt.evicting ∧ w372.residentEntry 0 1 = some (81928, 1048655) ∧ BuffersEmpty w372 ∧ w372.pinCount 81928 = 0 ∧ w372.readsAhead (ptePa 1048655) (2 ^ 19) = false ∧ w372.pageHasVersion (ptePa 1048655) 19 = false ∧ w374.forPevict = true ∧ w374.forFill = none ∧ pteD 1048655 = false) ∧
    (0 = w375.ctl.at_.ctx ∧ w373 = w375.ctx 0 ∧ 1 = w375.ctl.at_.vpn ∧ w373.pages = [(1, w374)] ∧ w373.frames.length < 256 ∧ w374.st = PageSt.evicting ∧ w375.residentEntry 0 1 = some (81928, 1049679) ∧ BuffersEmpty w375 ∧ w375.pinCount 81928 = 0 ∧ w375.readsAhead (ptePa 1049679) (2 ^ 19) = false ∧ w375.pageHasVersion (ptePa 1049679) 19 = false ∧ w374.forPevict = true ∧ w374.forFill = none ∧ pteD 1049679 = true) ∧
    (0 = w376.ctl.at_.ctx ∧ w377 = w376.ctx 0 ∧ 1 = w376.ctl.at_.vpn ∧ w377.pages = [(1, w378)] ∧ w377.frames.length < 256 ∧ w378.st = PageSt.writing ∧ w378.frame = some 2 ∧ w378.forPevict = true ∧ w378.forFill = none ∧ w378.forced = false ∧ w378.wanted = none) := by
  constructorm* _ ∧ _ <;> first
    | decide +kernel
    | (unfold BuffersEmpty; and_intros <;> first | decide +kernel | exact fun _ => rfl)
    | (unfold Ready; decide +kernel)

def w379 : State := regs [(4, full 1), (5, full 2), (6, full 3), (7, full 4)]
def w380 : State := { regs [(28, full 1), (29, full 2), (30, full 3), (31, full 4)] with ctxs := [(0, { st := .running, saveb := 1, cstrict := true })], cores := [(0, { fifo := { entries := List.replicate 16 copyReq } })] }
def w381 : State := { regs [(4, full 1), (5, full 2), (6, full 3), (7, full 4)] with cores := [(0, { fifo := { entries := List.replicate 16 copyReq } })] }
def w382 : State := { regs [(1, full 9)] with cores := [(0, { fifo := { pushed := [{ id := 4, xid := 9, ctx := 0, complete := true, status := 10, refusedWrite := true }, { id := 3, xid := 9, ctx := 0 }] } })] }
def w383 : Pushed := { id := 4, xid := 9, ctx := 0, complete := true, status := 10, refusedWrite := true }
def w384 : List Pushed := [{ id := 3, xid := 9, ctx := 0 }]
def w385 : State := { regs [(1, full 0x80010)] with clusters := [(0, { pb := [{ addr := 0x80000, ctx := 0, hyp := 0, words := [], stamp := 0 }, { addr := 0x80000, ctx := 1, hyp := 0, words := [], stamp := 0 }] })] }
def w386 : State := chucking { copyReq with w := [0, 1, 2, 3] }
def w387 : Request := { copyReq with w := [0, 1, 2, 3] }
def w388 : PbEntry := { addr := 0x80000, ctx := 0, hyp := 0, words := copyBlk, stamp := 0 }
def w389 : Xfer := { id := 0, req := copyReq, blk := copyBlk }
def w390 : State := ending { id := 7, req := copyReq, blk := copyBlk, accepted := true, total := 1, pos := 1 }
def w391 : Xfer := { id := 7, req := copyReq, blk := copyBlk, accepted := true, total := 1, pos := 1 }
def w392 : State := ending { id := 7, req := { copyReq with w := [BitVec.ofNat 64 (2 ^ 56 + 2 ^ 50 + 9 * 2 ^ 32), 0, 0, 0x80000] }, blk := copyBlk, accepted := true, total := 4, pos := 1, stopAt := some 1, status := 10, reason := 6 }
def w393 : Xfer := { id := 7, req := { copyReq with w := [BitVec.ofNat 64 (2 ^ 56 + 2 ^ 50 + 9 * 2 ^ 32), 0, 0, 0x80000] }, blk := copyBlk, accepted := true, total := 4, pos := 1, stopAt := some 1, status := 10, reason := 6 }
def w394 : List Byte := (sweeping []).partialRow (handleKey 0x8500) 1 ((pieces 64 (sweepX.ntok + 1) ((sweeping []).sweepTokens sweepX ((sweepSlices sweepX.stripes).getD 1 0))).foldl (sweepGroup sweepX (elemsOf sweepX.req.es sweepX.query 64)) {})
theorem wit_ChuckUnit :
    (Ready w379 (Instr.cpush 4#5 0#1) [4#5, 4#5 + 1, 4#5 + 2, 4#5 + 3] [] ∧ Quiet w379 ∧ w379.ctl.at_.slot < 16 ∧ w379.coreNo < 4096 ∧ (w379.core w379.coreNo).fifo.entries.length < 16) ∧
    (Ready w380 (Instr.cpush 28#5 0#1) [28#5, 28#5 + 1, 28#5 + 2, 28#5 + 3] [] ∧ Quiet w380 ∧ w380.ctl.at_.slot < 16 ∧ w380.coreNo < 4096 ∧ 16 ≤ (w380.core w380.coreNo).fifo.entries.length ∧ (w380.ctx w380.cur.ctx).cstrict = true ∧ Handles w380) ∧
    (Ready w381 (Instr.cpush 4#5 0#1) [4#5, 4#5 + 1, 4#5 + 2, 4#5 + 3] [] ∧ Quiet w381 ∧ w381.ctl.at_.slot < 16 ∧ w381.coreNo < 4096 ∧ 16 ≤ (w381.core w381.coreNo).fifo.entries.length ∧ (w381.ctx w381.cur.ctx).cstrict = false) ∧
    (Ready (regs [(1, full 65535)]) (Instr.cstat 3#5 1#5 0#1) [1#5] [3#5] ∧ BitVec.toNat ((regs [(1, full 65535)]).gr 1#5) < 2 ^ 16 ∧ ((regs [(1, full 65535)]).core (regs [(1, full 65535)]).coreNo).fifo.pushed = []) ∧
    (Ready w382 (Instr.cstat 3#5 1#5 0#1) [1#5] [3#5] ∧ BitVec.toNat (w382.gr 1#5) < 2 ^ 16 ∧ (w382.core w382.coreNo).fifo.pushed = w383 :: w384 ∧ w383.xid = BitVec.toNat (w382.gr 1#5) ∧ w383.discarded = false) ∧
    (Ready w385 (Instr.pbinv 1#5 0#1) [1#5] []) ∧
    (0 = w386.ctl.at_.cluster ∧ (w386.cluster 0).xfers = [] ∧ 0 = ((w386.cluster 0).rr + 1) % 20 ∧ w386.headReady 0 0 = true ∧ (w386.fifo 0 0).entries = [w387] ∧ (w386.fifo 0 0).waiting = [] ∧ w387.fifoNo = 0 ∧ (∀ r ∈ ([] : List Request), r.id ≠ w387.id) ∧ w387.wordsBad = true) ∧
    (0 = (chucking copyReq).ctl.at_.cluster ∧ ((chucking copyReq).cluster 0).xfers = [] ∧ 0 = (((chucking copyReq).cluster 0).rr + 1) % 20 ∧ (chucking copyReq).headReady 0 0 = true ∧ ((chucking copyReq).fifo 0 0).entries = [copyReq] ∧ ((chucking copyReq).fifo 0 0).waiting = [] ∧ copyReq.fifoNo = 0 ∧ (∀ r ∈ ([] : List Request), r.id ≠ copyReq.id) ∧ copyReq.wordsBad = false ∧ copyReq.op = 1 ∧ copyReq.fresh = false ∧ ((chucking copyReq).cluster 0).pb = [w388] ∧ w388.addr = copyReq.va 3 ∧ w388.ctx = copyReq.ctx ∧ w388.hyp = copyReq.hyp ∧ copyReq.va 3 % 128 = 0 ∧ w389 = { id := 0, req := copyReq, blk := w388.words } ∧ (chucking copyReq).blockStatus 0 w389 = none ∧ (∀ i < 6, w389.cnt i = 1) ∧ windowOf (copyReq.va 1) = Window3.scratch 24576 ∧ windowOf (copyReq.va 2) = Window3.scratch 24832 ∧ copyReq.va 1 % copyReq.es = 0 ∧ copyReq.va 2 % copyReq.es = 0 ∧ 24576 = spAddr 0 24576 ∧ 24832 = spAddr 0 24832 ∧ (chucking copyReq).spPoison = [] ∧ (chucking copyReq).views = [] ∧ Writable (chucking copyReq) 24832 copyReq.es) ∧
    (0 = w390.ctl.at_.cluster ∧ (w390.cluster 0).xfers = [w391] ∧ w391.id = w390.ctl.at_.n ∧ w391.sent = none ∧ w391.accepted = true ∧ w391.over = true ∧ w390.links.reqs = [] ∧ w390.links.egress = [] ∧ w391.req.quiet = false ∧ 2 ^ 56 + 9 * 2 ^ 32 = w391.req.op * 2 ^ 56 + w391.req.xid * 2 ^ 32 + w391.status ∧ w391.req.dwr = false ∧ w391.req.lathe = none ∧ w390.noRoom w391.req.core w391.req.ctx = false) ∧
    (0 = w392.ctl.at_.cluster ∧ (w392.cluster 0).xfers = [w393] ∧ w393.id = w392.ctl.at_.n ∧ w393.sent = none ∧ w393.accepted = true ∧ w393.over = true ∧ w392.links.reqs = [] ∧ w392.links.egress = [] ∧ w393.req.quiet = false ∧ 2 ^ 56 + 9 * 2 ^ 32 + 10 = w393.req.op * 2 ^ 56 + w393.req.xid * 2 ^ 32 + w393.status ∧ w393.req.dwr = true ∧ 0 = bitsOf (w393.par 12) 27 16 ∧ w392.fenced (0 / 16) = false) ∧
    (0 = (sweeping [524544 / 32]).ctl.at_.cluster ∧ 1 = (sweeping [524544 / 32]).ctl.at_.idx ∧ ((sweeping [524544 / 32]).cluster 0).xfers = [sweepX] ∧ sweepX.id = (sweeping [524544 / 32]).ctl.at_.n ∧ sweepX.rows.contains 1 = true ∧ 34048 = sweepX.req.word 2 ∧ (sweeping [524544 / 32]).sweepPoisoned sweepX ((sweepSlices sweepX.stripes).getD 1 0) = true ∧ sweepX.status = 0) ∧
    (0 = (sweeping []).ctl.at_.cluster ∧ 1 = (sweeping []).ctl.at_.idx ∧ ((sweeping []).cluster 0).xfers = [sweepX] ∧ sweepX.id = (sweeping []).ctl.at_.n ∧ sweepX.rows.contains 1 = true ∧ 34048 = sweepX.req.word 2 ∧ (sweeping []).sweepPoisoned sweepX ((sweepSlices sweepX.stripes).getD 1 0) = false ∧ (sweeping []).sweepWaits 0 sweepX ((sweepSlices sweepX.stripes).getD 1 0) = false ∧ (sweeping []).handleCurrent sweepX.req.ctx 34048 = true ∧ bitsOf 34048 31 24 = 0 ∧ w394 = (sweeping []).partialRow (handleKey 34048) 1 (List.foldl (sweepGroup sweepX (elemsOf sweepX.req.es sweepX.query 64)) { } (pieces 64 (sweepX.ntok + 1) ((sweeping []).sweepTokens sweepX ((sweepSlices sweepX.stripes).getD 1 0)))) ∧ PortTakes (sweeping []) (handleKey 34048) 1 0 w394.length ∧ ((sweeping []).tile (handleKey 34048)).vcnt + 1 < ((sweeping []).tile (handleKey 34048)).target) := by
  constructorm* _ ∧ _ <;> first
    | decide +kernel
    | (unfold Handles; decide +kernel)
    | (unfold PortTakes; decide +kernel)
    | (unfold Quiet; decide +kernel)
    | (unfold Ready; decide +kernel)
    | (unfold Writable; decide +kernel)

def w396 : Port := {}
def w395 : State := rdy {}
def w398 : Port := { st := .up, en := true }
def w397 : State := { linked [] with mgmt := { boot := .ready } }
def w400 : Port := { st := .training, en := true }
def w399 : State := { linked [] with links := { ports := [(2, { st := .training, en := true })] } }
def w401 : State := { linked [] with cycle := 2 ^ 24 + 3, links := { ports := [(2, { st := .training, en := true, trainAt := 3, txSeq := 4 })] } }
def w402 : BitVec 2048 := flitIn
def w403 : BitVec 128 := (pkt 2 7 0x80000 []).header
def w404 : BitVec 2048 := flitIn ^^^ 1
def w405 : State := { linked [] with ctxs := [(0, { budgets := { link := 0xFFFF } })], links := { (linked []).links with egress := [{ cluster := 0, ctx := 0, key := 5, p := pkt 1 3 0x100 [1, 2, 3, 4], who := .discard }] } }
def w406 : Egress := { cluster := 0, ctx := 0, key := 5, p := pkt 1 3 0x100 [1, 2, 3, 4], who := .discard }
def w407 : State := linked [pkt 1 3 0x80004 [1, 2, 0, 4], pkt 2 3 0 []]
def w408 : Packet := pkt 1 3 0x80004 [1, 2, 0, 4]
def w409 : State := linked [pkt 1 3 0x90004 [1, 2, 0, 4], pkt 2 3 0 []]
def w410 : Packet := pkt 1 3 0x90004 [1, 2, 0, 4]
def w411 : State := { linked [pkt 1 3 0x80004 [1, 2, 0, 4], pkt 2 3 0 []] with marked := [1] }
def w412 : State := linked [pkt 2 7 0x80004 []]
def w413 : State := { linked [pkt 2 7 0x80004 []] with poison := [0x80000 / 32] }
def w414 : State := linked [{ pkt 3 7 0x80008 (leBytes 8 5) with flags := 2 }]
def w415 : Packet := { pkt 3 7 0x80008 (leBytes 8 5) with flags := 2 }
def w416 : State := linked [pkt 4 7 0x80008 (leBytes 8 (2^64-1))]
def w417 : Packet := pkt 4 7 0x80008 (leBytes 8 (2^64-1))
def w418 : State := { linked [{ pkt 5 3 (0x8500 + 63 * 2 ^ 32 + 124 * 2 ^ 41) [1, 2, 3, 4] with flags := 1 }] with tiles := [(2, { st := .open_, gen := 5, shape := shape64 })] }
def w419 : Packet := { pkt 5 3 (0x8500 + 63 * 2 ^ 32 + 124 * 2 ^ 41) [1, 2, 3, 4] with flags := 1 }
def w420 : State := { linked [{ pkt 0x20 3 0 [1, 2, 3, 4] with tag := 0 }] with slots := [(0, { st := .active, regs := [(3, { st := .pending })], fills := [{ reg := 3, src := .link 6 }] })], links := { (linked [{ pkt 0x20 3 0 [1, 2, 3, 4] with tag := 0 }]).links with reqs := [{ tag := 0, port := 2, deadline := 9, ctx := 0, key := 6, p := {pkt 2 3 0 [] with tag := 0 }, who := .load 0 3 (.zext 4) 7 8 }] } }
def w421 : Packet := { pkt 0x20 3 0 [1, 2, 3, 4] with tag := 0 }
def w422 : LinkReq := { tag := 0, port := 2, deadline := 9, ctx := 0, key := 6, p := {pkt 2 3 0 [] with tag := 0 }, who := .load 0 3 (.zext 4) 7 8 }
def w423 : Fill := { reg := 3, src := .link 6 }
def w424 : State := { linked [{ pkt 0x20 3 0 [1, 2, 3, 4] with tag := 0, flags := 12 }] with slots := [(0, { st := .active, regs := [(3, { st := .pending })], fills := [{ reg := 3, src := .link 6 }] })], links := { (linked [{ pkt 0x20 3 0 [1, 2, 3, 4] with tag := 0, flags := 12 }]).links with reqs := [{ tag := 0, port := 2, deadline := 9, ctx := 0, key := 6, p := {pkt 2 3 0 [] with tag := 0 }, who := .load 0 3 (.zext 4) 7 8 }] } }
def w425 : Packet := { pkt 0x20 3 0 [1, 2, 3, 4] with tag := 0, flags := 12 }
def w426 : State := { linked [] with ctl := { at_ := { port := 2, tag := 0 } }, cycle := 9, slots := [(0, { st := .active, regs := [(3, { st := .pending })], fills := [{ reg := 3, src := .link 6 }] })], links := { (linked []).links with reqs := [{ tag := 0, port := 2, deadline := 9, ctx := 0, key := 6, p := {pkt 2 3 0 [] with tag := 0 }, who := .load 0 3 (.zext 4) 7 8 }] } }
def w427 : State := { rdy {} with hostMode := some .pcie5 }
def w428 : State := { rdy {} with hostMode := some .pcie5, marked := [1] }
theorem wit_LinkEvents :
    (35 = (35#6).toNat ∧ w396 = w395.port 35 ∧ w395.mgmt.boot = BootSt.ready ∧ 35 < 36 ∧ w396.st = PortSt.down) ∧
    (2 = (2#6).toNat ∧ w398 = w397.port 2 ∧ w397.mgmt.boot = BootSt.ready ∧ 2 < 36 ∧ (w398.st = PortSt.up ∨ w398.st = PortSt.degraded) ∧ w397.links.reqs = []) ∧
    (2 = (2#6).toNat ∧ w400 = w399.port 2 ∧ w400.st = PortSt.training ∧ w400.failed = 0 ∧ 15#4 = 15#4) ∧
    (2 = (2#6).toNat ∧ w400 = w399.port 2 ∧ w400.st = PortSt.training ∧ w400.failed = 0 ∧ 7#4 ≠ 15#4 ∧ BitVec.extractLsb' 0 2 7#4 = 3#2) ∧
    (2 = (2#6).toNat ∧ w400 = w399.port 2 ∧ w400.st = PortSt.training ∧ w400.failed = 0 ∧ BitVec.extractLsb' 0 2 13#4 ≠ 3#2 ∧ BitVec.extractLsb' 2 2 13#4 = 3#2) ∧
    (2 = (2#6).toNat ∧ w400 = w399.port 2 ∧ w400.st = PortSt.training ∧ w400.failed = 0 ∧ BitVec.extractLsb' 0 2 5#4 ≠ 3#2 ∧ BitVec.extractLsb' 2 2 5#4 ≠ 3#2 ∧ w399.links.reqs = []) ∧
    (2 = w401.ctl.at_.port ∧ (w401.port 2).st = PortSt.training ∧ (w401.port 2).trainAt + 2 ^ 24 ≤ w401.cycle ∧ w401.links.reqs = []) ∧
    (2 = (2#6).toNat ∧ w398 = (linked []).port 2 ∧ w398.carries = true ∧ w398.bad = none ∧ flitGood w402 = true ∧ flitKind w402 = 0 ∧ flitSeq w402 = w398.rxSeq ∧ w398.slots = [] ∧ w398.replay = [] ∧ flitSlots w402 = w403 :: List.replicate 14 0 ∧ w403 ≠ 0 ∧ (packetOf w403).op = 2 ∧ (packetOf w403).malformed (w403.toNat % 2 ^ 12) = false) ∧
    (2 = (2#6).toNat ∧ w398 = (linked []).port 2 ∧ w398.carries = true ∧ w398.bad = none ∧ flitGood w404 = false) ∧
    (0 = w405.ctl.at_.cluster ∧ w405.links.egress = [w406] ∧ w406.cluster = 0 ∧ (w405.ctx w406.ctx).budgets.link = 65535 ∧ w405.portFor w406.p = some 2 ∧ w405.links.reqs = [] ∧ w405.links.late = [] ∧ (w405.port 2).room w406.p = true) ∧
    (2 = w407.ctl.at_.port ∧ Arrived w407 2 w408 [pkt 2 3 0 []] ∧ w408.op = 1 ∧ w407.admission w408 = 0) ∧
    (2 = w409.ctl.at_.port ∧ Arrived w409 2 w410 [pkt 2 3 0 []] ∧ w410.op = 1 ∧ w409.admission w410 = 5 ∧ 5 ≠ 0) ∧
    (2 = w411.ctl.at_.port ∧ Arrived w411 2 w408 [pkt 2 3 0 []] ∧ w408.op = 1 ∧ w411.admission w408 = 7 ∧ 7 ≠ 0) ∧
    (2 = w412.ctl.at_.port ∧ Arrived w412 2 (pkt 2 7 524292 []) [] ∧ (pkt 2 7 524292 []).op = 2 ∧ w412.admission (pkt 2 7 524292 []) = 0 ∧ w412.poisoned (pkt 2 7 524292 []).addr ((pkt 2 7 524292 []).len + 1) = false) ∧
    (2 = w413.ctl.at_.port ∧ Arrived w413 2 (pkt 2 7 524292 []) [] ∧ (pkt 2 7 524292 []).op = 2 ∧ w413.admission (pkt 2 7 524292 []) = 0 ∧ w413.poisoned (pkt 2 7 524292 []).addr ((pkt 2 7 524292 []).len + 1) = true) ∧
    (2 = w414.ctl.at_.port ∧ Arrived w414 2 w415 [] ∧ w415.op = 3 ∧ w415.flags = 2 ∧ w414.admission w415 = 0 ∧ BuffersEmpty w414 ∧ w414.poisoned w415.addr 8 = false) ∧
    (2 = w416.ctl.at_.port ∧ Arrived w416 2 w417 [] ∧ w417.op = 4 ∧ w416.admission w417 = 0 ∧ BuffersEmpty w416 ∧ w416.poisoned w417.addr 8 = false) ∧
    (2 = w418.ctl.at_.port ∧ Arrived w418 2 w419 [] ∧ w419.op = 5 ∧ w418.admission w419 = 0 ∧ 34048 = w419.addr % 2 ^ 32 ∧ 63 = bitsOf w419.addr 38 32 ∧ 124 = bitsOf w419.addr 55 41 ∧ w418.handleCurrent w419.ctx 34048 = true ∧ PortTakes w418 (handleKey 34048) 63 124 w419.pay.length ∧ (w418.tile (handleKey 34048)).target = 0) ∧
    (2 = w420.ctl.at_.port ∧ Arrived w420 2 w421 [] ∧ w421.op = 32 ∧ w420.links.reqs = [w422] ∧ w422.port = 2 ∧ w422.tag = w421.tag ∧ w420.cycle < w422.deadline ∧ w422.who = LinkWho.load 0 3 (Conv.zext 4) (7#64) 8 ∧ w423 ∈ (w420.slot 0).fills ∧ w423.reg = 3 ∧ w423.src = FillSrc.link w422.key) ∧
    (2 = w424.ctl.at_.port ∧ Arrived w424 2 w425 [] ∧ w425.op = 32 ∧ w424.links.reqs = [w422] ∧ w422.port = 2 ∧ w422.tag = w425.tag ∧ w424.cycle < w422.deadline ∧ w422.who = LinkWho.load 0 3 (Conv.zext 4) (7#64) 8 ∧ w423 ∈ (w424.slot 0).fills ∧ w423.reg = 3 ∧ w423.src = FillSrc.link w422.key) ∧
    (w426.links.reqs = [w422] ∧ w422.deadline ≤ w426.cycle ∧ w422.who = LinkWho.load 0 3 (Conv.zext 4) (7#64) 8 ∧ w423 ∈ (w426.slot 0).fills ∧ w423.reg = 3 ∧ w423.src = FillSrc.link w422.key) ∧
    ((16#5).getLsbD 4 = true) ∧
    (0#5 = 0) ∧
    (w427.hostMode.isSome = true ∧ w427.mgmt.boot = BootSt.ready ∧ w427.inMap (524288#44).toNat (List.take 3 [1, 0, 3, 4]).length = true ∧ w427.rangeMarked (524288#44).toNat (List.take 3 [1, 0, 3, 4]).length = false) ∧
    (w428.hostMode.isSome = true ∧ w428.mgmt.boot = BootSt.ready ∧ w428.inMap (524286#44).toNat (List.take 3 [1, 2, 3, 4]).length = true ∧ w428.rangeMarked (524286#44).toNat (List.take 3 [1, 2, 3, 4]).length = true) := by
  constructorm* _ ∧ _ <;> first
    | (simp only [flitGood, flitCrc_forced]; decide +kernel)
    | decide +kernel
    | (unfold Arrived; decide +kernel)
    | (unfold BuffersEmpty; and_intros <;> first | decide +kernel | exact fun _ => rfl)
    | (unfold PortTakes; decide +kernel)

def w429 : State := { data [] with mgmt := { logFence := 5, logRetire := [3], off := true } }
def w430 : State := { data [] with mgmt := { boot := .verify } }
def w431 : State := { data [] with mgmt := { boot := .ready, attRes := 1 } }
def w432 : State := { data [] with mgmt := { boot := .ready } }
def w433 : State := { data [] with mgmt := { boot := .ready, attRes := 1, attBuf := 0x40, fences := 9 } }
def w434 : MarkJob := { words := (List.range 8).map (fun i => BitVec.ofNat 64 (marking.hbmRead (0x1000 + 8 * i) 8)) }
def w435 : MarkJob := { smallJob with old := jobbing.markSource smallJob }
def w436 : List Byte := (MarkJob.frame { smallJob with old := jobbing.markSource smallJob } 0 (jobbing.markSource smallJob))
def w440 : State := { rdy {} with mgmt := { boot := .ready, ltol := 39999 } }
def w442 : Slot := {}
def w441 : State := { State.reset with mgmt := { softHbm := 2 ^ 32 - 1 } }
theorem wit_ManagementEvents :
    (458776 = 458776) ∧
    (458792 = 458792 ∧ 1000 ≤ (BitVec.extractLsb' 0 16 1000#64).toNat ∧ (BitVec.extractLsb' 0 16 1000#64).toNat ≤ 3600) ∧
    (458792 = 458792 ∧ 1000 ≤ (BitVec.extractLsb' 0 16 3600#64).toNat ∧ (BitVec.extractLsb' 0 16 3600#64).toNat ≤ 3600) ∧
    (458792 = 458792 ∧ ((BitVec.extractLsb' 0 16 999#64).toNat < 1000 ∨ 3600 < (BitVec.extractLsb' 0 16 999#64).toNat)) ∧
    (458792 = 458792 ∧ ((BitVec.extractLsb' 0 16 3601#64).toNat < 1000 ∨ 3600 < (BitVec.extractLsb' 0 16 3601#64).toNat)) ∧
    (State.reset.mgmt.boot ≠ BootSt.ready ∧ 458744 < 458752) ∧
    (w395.mgmt.boot = BootSt.ready ∧ 264192 = 264192) ∧
    (w395.mgmt.boot = BootSt.ready ∧ 65728 = 65536 + 64 * (3#6).toNat ∧ BitVec.extractLsb' 56 8 144115188075855871#64 = 1#8) ∧
    (w244.mgmt.boot = BootSt.ready ∧ 65728 = 65536 + 64 * (3#6).toNat ∧ BitVec.extractLsb' 56 8 144115188075859968#64 = 2#8) ∧
    (w254.mgmt.boot = BootSt.ready ∧ 65728 = 65536 + 64 * (3#6).toNat ∧ BitVec.extractLsb' 56 8 216172782113787904#64 = 3#8) ∧
    (w252.mgmt.boot = BootSt.ready ∧ 65728 = 65536 + 64 * (3#6).toNat ∧ BitVec.extractLsb' 56 8 288230376151715840#64 = 4#8) ∧
    (w395.mgmt.boot = BootSt.ready ∧ 69568 = 65536 + 64 * (63#6).toNat ∧ BitVec.extractLsb' 56 8 360287970189643776#64 = 5#8) ∧
    (w429.mgmt.boot ≠ BootSt.verify) ∧
    (w430.mgmt.boot = BootSt.verify) ∧
    (w395.mgmt.boot ≠ BootSt.verify) ∧
    (w431.mgmt.attRes = 1) ∧
    (w432.mgmt.attRes ≠ 1 ∧ w432.mgmt.boot = BootSt.ready ∧ w432.inMap ((134217727#44).toNat * 4096) 4096 = true) ∧
    (w432.mgmt.attRes ≠ 1 ∧ w432.inMap ((134217728#44).toNat * 4096) 4096 = false) ∧
    (w433.mgmt.attRes = 1) ∧
    (4096 = (64#50).toNat * 64 ∧ jobbing.mgmt.mkState = 1) ∧
    (549755813888 = (8589934592#50).toNat * 64 ∧ marking.mgmt.mkState ≠ 1 ∧ marking.inMap 549755813888 64 = false) ∧
    (4096 = (64#50).toNat * 64 ∧ marking.mgmt.mkState ≠ 1 ∧ marking.inMap 4096 64 = true ∧ marking.poisoned 4096 64 = false ∧ (w434 = { words := List.map (fun i => BitVec.ofNat 64 (marking.hbmRead (4096 + 8 * i) 8)) (List.range 8) }) ∧ w434.fieldsOk = true ∧ marking.ctxRuns w434.ctx = true ∧ marking.markWaits w434 = false ∧ marking.markPages w434 (numsFrom 0 w434.rows) = (markU, some [(1, 1048576)])) ∧
    (jobbing.mgmt.mkState = 1 ∧ jobbing.mgmt.mkJob = some w435 ∧ w435.waits = false) ∧
    (jobbing.mgmt.mkState = 1 ∧ jobbing.mgmt.mkJob = some w435 ∧ w435.waits = false ∧ w435.old = jobbing.markSource w435 ∧ w436 = w435.frame jobbing.mgmt.mkKey w435.old ∧ w435.word 3 + w436.length ≤ w435.word 4) ∧
    (w440.mgmt.boot = BootSt.ready ∧ w440.idle = true) ∧
    ((regs []).idle = false) ∧
    (w442 = w441.slot (16 * (3#12).toNat + (2#4).toNat) ∧ w441.mgmt.softHbm < 2 ^ 32) ∧
    (w442 = (data []).slot (16 * (3#12).toNat + (2#4).toNat) ∧ 549755813887 < 2 ^ 39) ∧
    ((regs []).slot 0 = (regs []).slot (16 * (0#12).toNat + (0#4).toNat) ∧ ((regs []).slot 0).st ≠ SlotSt.free ∧ ((regs []).ctx ((regs []).slot 0).ctx).st = CtxSt.running) := by
  constructorm* _ ∧ _ <;> first
    | decide +kernel

/-- The machine that is to fetch `addi g3, g3, -1` as its next instruction. -/
def fetching : State := State.reset.withFetchWord 32 0x0118DFFF
/-- Lathe 1 at a bundle of one `sadd`, at its turn. -/
def bundled : State :=
  { lat { q := [(1, 5), (2, 7)] } with
    ctl := { turns := [.lathe 1] }
    hbm := (0x1009, 0x20) :: poke 0x80000 8 (2 ^ 24 + 2 ^ 32 * ((encodeSlot (.sadd 3 1 0 0x4000)).getD 0).toNat) }
def bundledA : State := (laterTurns bundled []).latheAt 1
def bundledU : State := bundledA.setLathe 1 { bundledA.lathe 1 with turnAt := some bundledA.cycle }
def bundledRead : State × Word32 × State × List Word32 :=
  match bundledU.bundleWords 1 0x80000 with
  | (a, .ok (h, b, .ok ws)) => (a, h, b, ws)
  | _ => (bundledU, 0, bundledU, [])
def bundledOne : Bundle := { addr := 0x80000, size := 8, ops := [(0, .sadd 3 1 0 0x4000)] }

theorem wit_StepRunsDecoded_spindle :
    fetching.ctl.turns = .spindle 0 :: [] ∧ fetching.mgmt.off = false ∧
    fetching.goesFirst (.spindle 0) = none ∧ (laterTurns fetching []).coreFree 0 = true ∧
    (laterTurns fetching []).pickReady 0 = some 0 ∧ ((laterTurns fetching []).actAt 0).cur.late = [] ∧
    ((laterTurns fetching []).actAt 0).fetchWord 0 = .word 0x0118DFFF ∧ decodeSpindle 0x0118DFFF = .ok (.addi 3 3 0 0x1FFF) := by
  decide +kernel

theorem wit_StepRunsDecoded_lathe :
    bundled.ctl.turns = .lathe 1 :: [] ∧ bundled.mgmt.off = false ∧ bundled.goesFirst (.lathe 1) = none ∧
    bundledU.latheMay 1 = true ∧ (bundledU.lathe 1).late = [] ∧
    (bundledU.lathe 1).skip = 0 ∧ (bundledU.lathe 1).atGang = false ∧ 0x80000 = (bundledU.lathe 1).pc.toNat ∧
    bundledU.bundleWords 1 0x80000 = (bundledRead.1, .ok (bundledRead.2.1, bundledRead.2.2.1, .ok bundledRead.2.2.2)) ∧
    decodeBundle 0x80000 (bundledU.lathe 1).loops.isEmpty (bundledRead.2.1 :: bundledRead.2.2.2) = .ok bundledOne ∧
    bundledOne = { addr := 0x80000, size := 8, ops := [(slotNoOf (.sadd 3 1 0 0x4000), .sadd 3 1 0 0x4000)] } ∧ bundledOne.hasMat = false := by
  decide +kernel

theorem wit_StepRunsDecoded_event :
    ({ State.reset with ctl := { turns := [.event { ctx := 3 } (.load 3 5)] } } : State).ctl.turns = [.event { ctx := 3 } (.load 3 5)] ∧
    State.reset.mgmt.off = false ∧ State.reset.goesFirst (.event { ctx := 3 } (.load 3 5)) = none ∧ isEvent (.load 3 5) = true := by
  decide +kernel

/-- The state after that machine's next step. -/
def fetched : State :=
  match step fetching with
  | .next t => t
  | _ => fetching
theorem wit_MemoryStaysCanonical : memoriesWf fetching ∧ step fetching = .next fetched := by
  unfold memoriesWf
  exact ⟨by decide +kernel, rfl⟩

/-- The same machine with a waiter entry of a thread that waits on HBM address 0x80008. -/
def waited : State :=
  { fetching with slices := [(homeSlice 0x80008, { waiters := [{ who := .slot 7, pa := 0x80008 }] })] }
/-- The state after its next step. -/
def waitedNext : State :=
  match step waited with
  | .next t => t
  | _ => waited
theorem wit_WaitersStayHomed : WaitersHomed waited ∧ step waited = .next waitedNext := ⟨oneSlice rfl (by decide +kernel), rfl⟩

theorem wit_RoundingOnce :
    (fp32 ∈ formats ∧ FiniteCode fp32 0x3FC00000 ∧ FiniteCode fp32 0xC0200000 ∧ valueOf fp32 0xC0200000 ≠ 0 ∧ FiniteCode fp32 1) ∧
    (FiniteCode fp32 0 ∧ valueOf fp32 0 = 0 ∧ FiniteCode fp32 0x80000000 ∧ valueOf fp32 0x80000000 = 0 ∧ FiniteCode fp32 0x3FC00000 ∧
      valueOf fp32 0x3FC00000 ≠ 0 ∧ fp32.noInf = false) ∧
    (e4m3 ∈ formats ∧ FiniteCode e4m3 0x7E ∧ FiniteCode e4m3 0xFE ∧ toFV e4m3 0x7F = .nan) ∧
    (toFV fp32 0x7FC00000 = .nan ∧ toFV fp32 0x7F800000 = .inf false ∧ toFV fp32 0xFF800000 = .inf true) ∧ (-128 : Int) ≤ 127 := by
  refine ⟨⟨by simp [formats], ?_, ?_, ?_, ?_⟩, ⟨?_, ?_, ?_, ?_, ?_, ?_, ?_⟩, ⟨by simp [formats], ?_, ?_, ?_⟩, ⟨?_, ?_, ?_⟩, by decide⟩ <;>
    first
    | (unfold FiniteCode; decide +kernel)
    | decide +kernel

end Sys2Proof.Tests
end

section
/-! LEMMAS. The words that spindle instructions compute (chapter 15): the model's operations on bits equal the exact arithmetic of
the tables. -/

namespace Sys2Proof.Machine

open Sys2Proof.Claims

/-! ### Immediate forms (R225, R226) -/

@[simp] theorem toInt_sext13 (m : BitVec 13) : (sext13 m).toInt = m.toInt :=
  BitVec.toInt_signExtend_of_le (by decide)

theorem add_sext13 (x : Word64) (m : BitVec 13) : x + sext13 m = BitVec.ofInt 64 (x.toInt + m.toInt) := by
  rw [BitVec.ofInt_add, BitVec.ofInt_toInt]
  rfl

theorem shiftLeft_eq_ofNat (x : Word64) (n : Nat) : x <<< n = BitVec.ofNat 64 (x.toNat * 2 ^ n) := by
  rw [← Nat.shiftLeft_eq]
  rfl

theorem ushiftRight_eq_ofNat (x : Word64) (n : Nat) : x >>> n = BitVec.ofNat 64 (x.toNat / 2 ^ n) := by
  apply BitVec.eq_of_toNat_eq
  rw [BitVec.toNat_ushiftRight, Nat.shiftRight_eq_div_pow, BitVec.toNat_ofNat,
    Nat.mod_eq_of_lt ((Nat.div_le_self _ _).trans_lt x.isLt)]

theorem sshiftRight_eq_ofInt (x : Word64) (n : Nat) : x.sshiftRight n = BitVec.ofInt 64 (x.toInt / 2 ^ n) := by
  rw [BitVec.sshiftRight, Int.shiftRight_eq_div_pow]
  norm_cast

theorem boolWord_beq_sext13 (x : Word64) (m : BitVec 13) : boolWord (x == sext13 m) = bit (x.toInt = m.toInt) := by
  simp [boolWord, bit, ← BitVec.toInt_inj]

theorem boolWord_slt_sext13 (x : Word64) (m : BitVec 13) : boolWord (x.slt (sext13 m)) = bit (x.toInt < m.toInt) := by
  simp [boolWord, bit, BitVec.slt]

theorem shiftLeft_or_zeroExtend (x : Word64) (m : BitVec 13) :
    x <<< 13 ||| m.zeroExtend 64 = BitVec.ofNat 64 (x.toNat * 2 ^ 13 + m.toNat) := by
  rw [← Nat.shiftLeft_eq, Nat.shiftLeft_add_eq_or_of_lt m.isLt, BitVec.ofNat_or, BitVec.ofNat_toNat]
  rfl

/-! ### Counts of bits (R223) -/

/-- The count of zeros downward stops at the first one below bit n. -/
theorem clzFrom_spec (x n : Nat) : clzFrom x n ≤ n ∧ (∀ i, i < clzFrom x n → x.testBit (n - 1 - i) = false) ∧
    (clzFrom x n < n → x.testBit (n - 1 - clzFrom x n) = true) := by
  induction n with
  | zero => simp [clzFrom]
  | succ n ih =>
    obtain ⟨hle, hzero, hone⟩ := ih
    rw [clzFrom]
    split
    case isTrue h => simpa using h
    case isFalse h =>
      refine ⟨by omega, fun i hi => ?_, fun hlt => ?_⟩
      · cases i with
        | zero => simpa using h
        | succ j =>
          rw [show n + 1 - 1 - (j + 1) = n - 1 - j by omega]
          exact hzero j (by omega)
      · rw [show n + 1 - 1 - (1 + clzFrom x n) = n - 1 - clzFrom x n by omega]
        exact hone (by omega)

/-- The count of zeros upward stops at the first one from bit i on. -/
theorem ctzFrom_spec (x i n : Nat) : ctzFrom x i n ≤ n ∧ (∀ j, j < ctzFrom x i n → x.testBit (i + j) = false) ∧
    (ctzFrom x i n < n → x.testBit (i + ctzFrom x i n) = true) := by
  induction n generalizing i with
  | zero => simp [ctzFrom]
  | succ n ih =>
    obtain ⟨hle, hzero, hone⟩ := ih (i + 1)
    rw [ctzFrom]
    split
    case isTrue h => simpa using h
    case isFalse h =>
      refine ⟨by omega, fun j hj => ?_, fun hlt => ?_⟩
      · cases j with
        | zero => simpa using h
        | succ j =>
          rw [show i + (j + 1) = i + 1 + j by omega]
          exact hzero j (by omega)
      · rw [← Nat.add_assoc]
        exact hone (by omega)

theorem popcFrom_eq_length_filter (x n : Nat) : popcFrom x n = ((List.range n).filter (fun i => x.testBit i)).length := by
  induction n with
  | zero => rfl
  | succ n ih =>
    rw [popcFrom, ih, List.range_succ, List.filter_append, List.length_append, Nat.add_comm]
    cases h : x.testBit n <;> simp [b2n, h]

theorem leadingZeros_clzFrom (x : Word64) : leadingZeros x (clzFrom x.toNat 64) := clzFrom_spec x.toNat 64

theorem trailingZeros_ctzFrom (x : Word64) : trailingZeros x (ctzFrom x.toNat 0 64) := by
  simpa [trailingZeros, BitVec.getLsbD] using ctzFrom_spec x.toNat 0 64

theorem popcFrom_eq_onesOf (x : Word64) : popcFrom x.toNat 64 = onesOf x := popcFrom_eq_length_filter x.toNat 64

/-! ### Bit fields (R230) -/

theorem getLsbD_fieldMask (pos width : Nat) {i : Nat} (hi : i < 64) :
    (fieldMask pos width).getLsbD i = decide (pos ≤ i ∧ i < pos + width) := by
  simp only [fieldMask, BitVec.getLsbD_ofNat, hi, decide_true, Bool.true_and, Nat.testBit_mul_two_pow,
    Nat.testBit_two_pow_sub_one, ← Bool.decide_and]
  exact decide_eq_decide.2 (by omega)

/-- What `bfx` gives: the bits of the field, and zeros above. -/
theorem getLsbD_extractField (x : Word64) (pos width i : Nat) :
    ((x &&& fieldMask pos width) >>> pos).getLsbD i = (decide (i < width) && x.getLsbD (pos + i)) := by
  rw [BitVec.getLsbD_ushiftRight, BitVec.getLsbD_and, Bool.and_comm]
  by_cases hi : pos + i < 64
  · simp [getLsbD_fieldMask pos width hi]
  · simp [BitVec.getLsbD_of_ge _ _ (Nat.le_of_not_lt hi)]

/-- What `bfi` gives: the low bits of x in the field, and y around it. -/
theorem getLsbD_insertField (x y : Word64) (pos width : Nat) {i : Nat} (hi : i < 64) :
    ((y &&& ~~~fieldMask pos width) ||| ((x <<< pos) &&& fieldMask pos width)).getLsbD i =
      if pos ≤ i ∧ i < pos + width then x.getLsbD (i - pos) else y.getLsbD i := by
  simp only [BitVec.getLsbD_or, BitVec.getLsbD_and, BitVec.getLsbD_not, BitVec.getLsbD_shiftLeft, getLsbD_fieldMask pos width hi, hi]
  split
  case isTrue h => simp [h, Nat.not_lt.2 h.1]
  case isFalse h => simp [h]

/-! ### Division (R224, Table 15-3) -/

theorem ofInt_tdiv (x y : Word64) : BitVec.ofInt 64 (x.toInt.tdiv y.toInt) = x.sdiv y := by
  apply BitVec.eq_of_toInt_eq
  rw [BitVec.toInt_ofInt, BitVec.toInt_sdiv]

theorem ofInt_tmod (x y : Word64) : BitVec.ofInt 64 (x.toInt.tmod y.toInt) = x.srem y := by
  rw [← BitVec.toInt_srem, BitVec.ofInt_toInt]

/-- The remainder of a truncated quotient is zero or of the sign of the dividend. -/
theorem tmod_mul_self_nonneg (x y : Int) : 0 ≤ x.tmod y * x := by
  rcases le_total 0 x with h | h
  · exact mul_nonneg (Int.tmod_nonneg y h) h
  · have hneg : 0 ≤ (-x).tmod y := Int.tmod_nonneg y (neg_nonneg.2 h)
    rw [Int.neg_tmod] at hneg
    exact mul_nonneg_of_nonpos_of_nonpos (neg_nonneg.1 hneg) h

/-- The quotient of the least integer and −1 is the one that does not fit in a word; every other quotient is exact. -/
theorem divSigned_remSigned_spec (x y : Word64) :
    if y = 0 then divSigned x y = BitVec.allOnes 64 ∧ remSigned x y = x
    else if x = BitVec.intMin 64 ∧ y = BitVec.allOnes 64 then divSigned x y = BitVec.intMin 64 ∧ remSigned x y = 0
    else x.toInt = (divSigned x y).toInt * y.toInt + (remSigned x y).toInt ∧
      (remSigned x y).toInt.natAbs < y.toInt.natAbs ∧ 0 ≤ (remSigned x y).toInt * x.toInt := by
  split
  case isTrue hy => exact ⟨if_pos hy, if_pos hy⟩
  case isFalse hy =>
    rw [divSigned, remSigned, if_neg hy, if_neg hy, ofInt_tdiv, ofInt_tmod, BitVec.toInt_srem]
    split
    case isTrue h =>
      obtain ⟨rfl, rfl⟩ := h
      decide
    case isFalse h =>
      have hy0 : y.toInt ≠ 0 := fun e => hy (BitVec.toInt_inj.1 e)
      rw [BitVec.toInt_sdiv_of_ne_or_ne x y (not_and_or.1 h)]
      refine ⟨?_, ?_, tmod_mul_self_nonneg _ _⟩
      · rw [mul_comm, Int.mul_tdiv_add_tmod]
      · rw [Int.natAbs_tmod]
        exact Nat.mod_lt _ (Int.natAbs_pos.2 hy0)

theorem divUnsigned_remUnsigned_spec (x y : Word64) :
    if y = 0 then divUnsigned x y = BitVec.allOnes 64 ∧ remUnsigned x y = x
    else x.toNat = (divUnsigned x y).toNat * y.toNat + (remUnsigned x y).toNat ∧ (remUnsigned x y).toNat < y.toNat := by
  split
  case isTrue hy => exact ⟨if_pos hy, if_pos hy⟩
  case isFalse hy =>
    rw [divUnsigned, remUnsigned, if_neg hy, if_neg hy, BitVec.toNat_udiv, BitVec.toNat_umod]
    exact ⟨(Nat.div_add_mod' _ _).symm, Nat.mod_lt _ (BitVec.toNat_pos_of_ne_zero hy)⟩

/-! ### Pointers (R26, R28, R234) -/

/-- A pointer by its two parts: the top byte and the va. -/
theorem append_eq_ofNat (top : BitVec 8) (va : BitVec 56) : top ++ va = BitVec.ofNat 64 (top.toNat * 2 ^ 56 + va.toNat) := by
  have := top.isLt
  have := va.isLt
  apply BitVec.eq_of_toNat_eq
  rw [BitVec.toNat_append, ← Nat.shiftLeft_add_eq_or_of_lt va.isLt, Nat.shiftLeft_eq, BitVec.toNat_ofNat,
    Nat.mod_eq_of_lt (by omega)]

theorem withVa_eq_append (p : Word64) (n : Nat) : withVa p n = p.extractLsb' 56 8 ++ BitVec.ofNat 56 n := by
  have := p.isLt
  rw [append_eq_ofNat, BitVec.extractLsb'_toNat, Nat.shiftRight_eq_div_pow, BitVec.toNat_ofNat,
    Nat.mod_eq_of_lt (show p.toNat / 2 ^ 56 < 2 ^ 8 by omega)]
  rfl

theorem ptrFmt_eq_div (p : Word64) : ptrFmt p = p.toNat / 2 ^ 59 := by
  have := p.isLt
  rw [ptrFmt, bitsOf, Nat.shiftRight_eq_div_pow, Nat.mod_eq_of_lt (by omega)]

theorem withVa_add_eq_append (p x : Word64) :
    withVa p (p.toNat + x.toNat) = p.extractLsb' 56 8 ++ (p.extractLsb' 0 56 + x.extractLsb' 0 56) := by
  rw [withVa_eq_append, BitVec.ofNat_add]
  rfl

theorem withVa_index_eq_append (p x : Word64) : withVa p (p.toNat + x.toNat * elemSize (ptrFmt p)) =
    p.extractLsb' 56 8 ++ BitVec.ofNat 56 (p.toNat % 2 ^ 56 + x.toNat * elemSize (p.toNat / 2 ^ 59)) := by
  rw [withVa_eq_append, ptrFmt_eq_div]
  congr 1
  exact BitVec.eq_of_toNat_eq (by rw [BitVec.toNat_ofNat, BitVec.toNat_ofNat, Nat.mod_add_mod])

theorem ofNat_tagged_eq_append (p x : Word64) :
    BitVec.ofNat 64 (x.toNat % 2 ^ 8 * 2 ^ 56 + ptrVa p) = x.extractLsb' 0 8 ++ p.extractLsb' 0 56 := by
  rw [append_eq_ofNat, BitVec.extractLsb'_toNat, BitVec.extractLsb'_toNat]
  rfl

theorem ofNat_ptrVa_eq_append (p : Word64) : BitVec.ofNat 64 (ptrVa p) = 0#8 ++ p.extractLsb' 0 56 := by
  rw [append_eq_ofNat, BitVec.extractLsb'_toNat, BitVec.toNat_zero, Nat.zero_mul, Nat.zero_add]
  rfl

/-! ### Comparison of FP64 values (R236) -/

theorem fcmpResult_eq (x y : Nat) : fcmpResult x y =
    if isNanCode fp64 x ∨ isNanCode fp64 y then 8 else if valueKey fp64 x < valueKey fp64 y then 1
    else if valueKey fp64 x = valueKey fp64 y then 2 else 4 := by
  simp only [fcmpResult, Bool.or_eq_true]

end Sys2Proof.Machine
end

section
/-! LEMMAS. The meaning of each instruction by the shared operation that it is made of (chapter 15). -/

namespace Sys2Proof.Machine

section
variable {d a b fmt : BitVec 5} {ta tb : BitVec 1} {imm : BitVec 13} {wm1 pos : BitVec 6} {s : State}

/-! ### Immediate forms (R225, R226) -/

theorem exec_addi : exec (.addi d a ta imm) s =
    unary (.addi d a ta imm) d a ta (fun x => x + sext13 imm) s := rfl
theorem exec_andi : exec (.andi d a ta imm) s =
    unary (.andi d a ta imm) d a ta (fun x => x &&& sext13 imm) s := rfl
theorem exec_ori : exec (.ori d a ta imm) s =
    unary (.ori d a ta imm) d a ta (fun x => x ||| sext13 imm) s := rfl
theorem exec_xori : exec (.xori d a ta imm) s =
    unary (.xori d a ta imm) d a ta (fun x => x ^^^ sext13 imm) s := rfl
theorem exec_shli : exec (.shli d a ta imm) s =
    unary (.shli d a ta imm) d a ta (fun x => x <<< imm.toNat) s := rfl
theorem exec_shri : exec (.shri d a ta imm) s =
    unary (.shri d a ta imm) d a ta (fun x => x >>> imm.toNat) s := rfl
theorem exec_srai : exec (.srai d a ta imm) s =
    unary (.srai d a ta imm) d a ta (fun x => x.sshiftRight imm.toNat) s := rfl
theorem exec_cmpeqi : exec (.cmpeqi d a ta imm) s =
    unary (.cmpeqi d a ta imm) d a ta (fun x => boolWord (x == sext13 imm)) s := rfl
theorem exec_cmplti : exec (.cmplti d a ta imm) s =
    unary (.cmplti d a ta imm) d a ta (fun x => boolWord (x.slt (sext13 imm))) s := rfl
theorem exec_movhi : exec (.movhi d a ta imm) s =
    unary (.movhi d a ta imm) d a ta (fun x => (x <<< 13) ||| imm.zeroExtend 64) s := rfl
theorem exec_movi : exec (.movi d imm) s = operands (.movi d imm) [] [d] s (fun s => s.result d [] (sext13 imm)) := rfl

/-! ### Counts, selection and bit fields (R223, R230) -/

theorem exec_clz : exec (.clz d a ta) s =
    unary (.clz d a ta) d a ta (fun x => BitVec.ofNat 64 (clzFrom x.toNat 64)) s := rfl
theorem exec_ctz : exec (.ctz d a ta) s =
    unary (.ctz d a ta) d a ta (fun x => BitVec.ofNat 64 (ctzFrom x.toNat 0 64)) s := rfl
theorem exec_popc : exec (.popc d a ta) s =
    unary (.popc d a ta) d a ta (fun x => BitVec.ofNat 64 (popcFrom x.toNat 64)) s := rfl
theorem exec_sel : exec (.sel d a b ta tb) s =
    ternary (.sel d a b ta tb) d a b ta tb (fun z x y => if z ≠ 0 then x else y) s := rfl
theorem exec_bfx : exec (.bfx d a ta wm1 pos) s =
    unary (.bfx d a ta wm1 pos) d a ta (fun x => (x &&& fieldMask pos.toNat (wm1.toNat + 1)) >>> pos.toNat) s := rfl
theorem exec_bfi : exec (.bfi d a ta wm1 pos) s =
    operands (.bfi d a ta wm1 pos) [(a, ta), (d, 0#1)] [d] s (fun s => s.result d [a, d]
      ((s.gr d &&& ~~~fieldMask pos.toNat (wm1.toNat + 1)) |||
        ((s.gr a <<< pos.toNat) &&& fieldMask pos.toNat (wm1.toNat + 1)))) := rfl

/-! ### Division (R224) -/

theorem exec_div : exec (.div d a b ta tb) s =
    binaryLate (.div d a b ta tb) d a b ta tb 34 divSigned s := rfl
theorem exec_divz : exec (.divz d a b ta tb) s =
    binaryLate (.divz d a b ta tb) d a b ta tb 34 divUnsigned s := rfl
theorem exec_rem : exec (.rem d a b ta tb) s =
    binaryLate (.rem d a b ta tb) d a b ta tb 34 remSigned s := rfl
theorem exec_remz : exec (.remz d a b ta tb) s =
    binaryLate (.remz d a b ta tb) d a b ta tb 34 remUnsigned s := rfl

/-! ### FP64, conversions and pointers (R234 to R237) -/

theorem exec_fadd : exec (.fadd d a b ta tb) s =
    binary (.fadd d a b ta tb) d a b ta tb (fun x y => word (faddCode fp64 x.toNat y.toNat)) s := rfl
theorem exec_fsub : exec (.fsub d a b ta tb) s =
    binary (.fsub d a b ta tb) d a b ta tb (fun x y => word (fsubCode fp64 x.toNat y.toNat)) s := rfl
theorem exec_fmul : exec (.fmul d a b ta tb) s =
    binary (.fmul d a b ta tb) d a b ta tb (fun x y => word (fmulCode fp64 x.toNat y.toNat)) s := rfl
theorem exec_fmadd : exec (.fmadd d a b ta tb) s =
    ternary (.fmadd d a b ta tb) d a b ta tb (fun z x y => word (fmaCode fp64 x.toNat y.toNat z.toNat)) s := rfl
theorem exec_fdiv : exec (.fdiv d a b ta tb) s =
    binaryLate (.fdiv d a b ta tb) d a b ta tb 26 (fun x y => word (divTo fp64 (toFV fp64 x.toNat) (toFV fp64 y.toNat))) s := rfl
theorem exec_fmin : exec (.fmin d a b ta tb) s =
    binary (.fmin d a b ta tb) d a b ta tb (fun x y => word (fminCode fp64 x.toNat y.toNat)) s := rfl
theorem exec_fmax : exec (.fmax d a b ta tb) s =
    binary (.fmax d a b ta tb) d a b ta tb (fun x y => word (fmaxCode fp64 x.toNat y.toNat)) s := rfl
theorem exec_fcmp : exec (.fcmp d a b ta tb) s =
    binary (.fcmp d a b ta tb) d a b ta tb (fun x y => word (fcmpResult x.toNat y.toNat)) s := rfl
theorem exec_cvtfi : exec (.cvtfi d a ta) s =
    unary (.cvtfi d a ta) d a ta (fun x => BitVec.ofInt 64 (fvToInt (-2 ^ 63) (2 ^ 63 - 1) (toFV fp64 x.toNat))) s := rfl
theorem exec_cvtif : exec (.cvtif d a ta) s =
    unary (.cvtif d a ta) d a ta (fun x => word (ofFV fp64 (intToFV x.toInt))) s := rfl
theorem exec_cvtffN : exec (.cvtffN d a fmt ta) s =
    unary (.cvtffN d a fmt ta) d a ta (fun x => word (fcvtCode fp64 (fmtOfCode fmt.toNat) x.toNat)) s := rfl
theorem exec_cvtffW : exec (.cvtffW d a fmt ta) s =
    unary (.cvtffW d a fmt ta) d a ta (fun x =>
      word (fcvtCode (fmtOfCode fmt.toNat) fp64 (x.toNat % 2 ^ (fmtOfCode fmt.toNat).width))) s := rfl
theorem exec_padd : exec (.padd d a b ta tb) s =
    binary (.padd d a b ta tb) d a b ta tb (fun p x => withVa p (p.toNat + x.toNat)) s := rfl
theorem exec_ptag : exec (.ptag d a b ta tb) s =
    binary (.ptag d a b ta tb) d a b ta tb (fun p x => BitVec.ofNat 64 (x.toNat % 2 ^ 8 * 2 ^ 56 + ptrVa p)) s := rfl
theorem exec_pstrip : exec (.pstrip d a ta) s =
    unary (.pstrip d a ta) d a ta (fun p => BitVec.ofNat 64 (ptrVa p)) s := rfl
theorem exec_pidx : exec (.pidx d a b ta tb) s =
    operands (.pidx d a b ta tb) [(a, ta), (b, tb)] [d] s (fun s =>
      if formatBad (s.gr a) false then s.trap tFORMAT_FAULT
      else s.result d [a, b] (withVa (s.gr a) ((s.gr a).toNat + (s.gr b).toNat * elemSize (ptrFmt (s.gr a))))) := rfl

end

end Sys2Proof.Machine
end

section
/-! LEMMAS. What an instruction of a shared form does when it issues: it writes its result, or it traps. -/

namespace Sys2Proof.Machine

section
variable {i : Instr} {d a b : BitVec 5} {ta tb : BitVec 1} {s : State} {v : Word64}

/-- `unary_ready` for an instruction whose result has another name. -/
theorem wroteReg_of_unary {f : Word64 → Word64} (he : exec i s = unary i d a ta f s) (hv : f (s.gr a) = v)
    (h : Ready s i [a] [d]) : ∃ t, exec i s = .next t ∧ WroteReg s t d v := by
  rw [he, ← hv]
  exact unary_ready h

/-- `binary_ready` for an instruction whose result has another name. -/
theorem wroteReg_of_binary {f : Word64 → Word64 → Word64} (he : exec i s = binary i d a b ta tb f s)
    (hv : f (s.gr a) (s.gr b) = v) (h : Ready s i [a, b] [d]) : ∃ t, exec i s = .next t ∧ WroteReg s t d v := by
  rw [he, ← hv]
  exact binary_ready h

/-- `Ready` for two sources, from the fields and the states of the three registers. -/
theorem ready_of_full (hw : wellFormed i = true) (ha : (s.cur.reg a.toNat).st = .full) (hb : (s.cur.reg b.toNat).st = .full)
    (hd : (s.cur.reg d.toNat).st ≠ .pending) : Ready s i [a, b] [d] :=
  ⟨hw, by simp [ha, hb], by simpa using hd⟩

/-- R330: a precise trap of a slot that can take it resumes at the instruction itself. -/
theorem trap_tookTrap (h : Handles s) (info : TrapInfo) : TookTrap s (s.trap info) info s.cur.pc :=
  trapSlot_took h info _ _

/-- R203: a field beyond its limit. -/
theorem unary_illegal {f : Word64 → Word64} (he : exec i s = unary i d a ta f s) (hw : wellFormed i = false) (h : Handles s) :
    ∃ t, exec i s = .next t ∧ TookTrap s t tILLEGAL s.cur.pc :=
  ⟨_, he.trans (operands_illegal hw), trap_tookTrap h tILLEGAL⟩

end

end Sys2Proof.Machine
end

section
/-! CERTIFICATES. The immediate, count, select, bit-field, division, FP64, conversion and pointer instructions (R223 to R226, R230,
R234 to R237). -/

namespace Sys2Proof.Claims

open Sys2Proof Sys2Proof.Machine

/-! ### Immediate and bit-field instructions -/

/-- R225, R226: each immediate form by its word lemma, in the order of the table. -/
theorem immediateOps_write : ∀ p ∈ immediateOps, ∀ (d a : BitVec 5) (ta : BitVec 1) (m : BitVec 13) (s : State),
    Ready s (p.1 d a ta m) [a] [d] → ∃ t, exec (p.1 d a ta m) s = .next t ∧ WroteReg s t d (p.2 (s.gr a) m) := by
  simp only [immediateOps, List.forall_mem_cons]
  refine ⟨?addi, ?andi, ?ori, ?xori, ?shli, ?shri, ?srai, ?cmpeqi, ?cmplti, ?movhi, nofun⟩ <;> intro d a ta m s h
  case addi => exact wroteReg_of_unary exec_addi (add_sext13 _ m) h
  case andi => exact wroteReg_of_unary exec_andi rfl h
  case ori => exact wroteReg_of_unary exec_ori rfl h
  case xori => exact wroteReg_of_unary exec_xori rfl h
  case shli => exact wroteReg_of_unary exec_shli (shiftLeft_eq_ofNat _ _) h
  case shri => exact wroteReg_of_unary exec_shri (ushiftRight_eq_ofNat _ _) h
  case srai => exact wroteReg_of_unary exec_srai (sshiftRight_eq_ofInt _ _) h
  case cmpeqi => exact wroteReg_of_unary exec_cmpeqi (boolWord_beq_sext13 _ m) h
  case cmplti => exact wroteReg_of_unary exec_cmplti (boolWord_slt_sext13 _ m) h
  case movhi => exact wroteReg_of_unary exec_movhi (shiftLeft_or_zeroExtend _ m) h

/-- R226: a shift by an immediate above 63. -/
theorem shiftAbove63_traps : ∀ op ∈ ([.shli, .shri, .srai] : List OpI), ∀ (d a : BitVec 5) (ta : BitVec 1) (m : BitVec 13) (s : State),
    63 < m.toNat → Handles s → ∃ t, exec (op d a ta m) s = .next t ∧ TookTrap s t tILLEGAL s.cur.pc := by
  have beyond {m : BitVec 13} (hm : 63 < m.toNat) : decide (m ≤ 63#13) = false := decide_eq_false (Nat.not_le.2 hm)
  simp only [List.forall_mem_cons]
  refine ⟨?shli, ?shri, ?srai, nofun⟩ <;> intro d a ta m s hm h
  case shli => exact unary_illegal exec_shli (beyond hm) h
  case shri => exact unary_illegal exec_shri (beyond hm) h
  case srai => exact unary_illegal exec_srai (beyond hm) h

/-- Settles O2: each form by the rule of its shape (`unary`, `ternary`, `operands`) and the lemma about its word. -/
theorem immediateAndBitResults : Obligations.ImmediateAndBitResults := by
  refine ⟨⟨immediateOps_write, ?movi, shiftAbove63_traps⟩, ?clz, ?ctz, ?popc, ?sel, ?bfx, ?bfi⟩
  case movi =>
    intro d m s hd
    have h : Ready s (.movi d m) [] [d] := ⟨rfl, nofun, by simpa using hd⟩
    exact ⟨_, exec_movi.trans (operands_ready (srcs := []) h), result_wroteReg s d [] _⟩
  case clz =>
    intro d a ta s h
    obtain ⟨t, ht, hw⟩ := wroteReg_of_unary exec_clz rfl h
    exact ⟨t, _, ht, leadingZeros_clzFrom (s.gr a), hw⟩
  case ctz =>
    intro d a ta s h
    obtain ⟨t, ht, hw⟩ := wroteReg_of_unary exec_ctz rfl h
    exact ⟨t, _, ht, trailingZeros_ctzFrom (s.gr a), hw⟩
  case popc =>
    intro d a ta s h
    exact wroteReg_of_unary exec_popc (congrArg _ (popcFrom_eq_onesOf _)) h
  case sel =>
    intro d a b ta tb s h
    rw [exec_sel]
    exact ternary_ready h
  case bfx =>
    intro d a ta wm1 pos s h
    obtain ⟨t, ht, hw⟩ := wroteReg_of_unary exec_bfx rfl h
    refine ⟨t, _, ht, hw, fun i _ => ?_⟩
    simp only [getLsbD_extractField, Nat.lt_succ_iff]
  case bfi =>
    intro d a ta wm1 pos s h
    have he := exec_bfi.trans (operands_ready (srcs := [(a, ta), (d, 0#1)]) h)
    refine ⟨_, _, he, result_wroteReg s d [a, d] _, fun i hi => ?_⟩
    simp only [getLsbD_insertField _ _ _ _ hi, ← Nat.add_assoc, Nat.lt_succ_iff]

/-! ### Division -/

/-- Settles O3: both results arrive by `binaryLate_ready`, and the words satisfy the division equation. -/
theorem divisionResults : Obligations.DivisionResults := by
  intro d a b ta tb s ha hb hd
  have ready {i : Instr} (hw : wellFormed i = true) : Ready s i [a, b] [d] := ready_of_full hw ha hb hd
  constructor
  case left =>
    obtain ⟨t1, h1, hq⟩ := binaryLate_ready (ready (i := .div d a b ta tb) rfl)
    obtain ⟨t2, h2, hr⟩ := binaryLate_ready (ready (i := .rem d a b ta tb) rfl)
    exact ⟨t1, t2, _, _, exec_div.trans h1, exec_rem.trans h2, hq, hr, divSigned_remSigned_spec _ _⟩
  case right =>
    obtain ⟨t1, h1, hq⟩ := binaryLate_ready (ready (i := .divz d a b ta tb) rfl)
    obtain ⟨t2, h2, hr⟩ := binaryLate_ready (ready (i := .remz d a b ta tb) rfl)
    exact ⟨t1, t2, _, _, exec_divz.trans h1, exec_remz.trans h2, hq, hr, divUnsigned_remUnsigned_spec _ _⟩

/-! ### FP64, conversions and pointers -/

/-- R234 to R236: the forms of two sources, in the order of the table. -/
theorem otherOps2_write : ∀ p ∈ otherOps2, ∀ (d a b : BitVec 5) (ta tb : BitVec 1) (s : State),
    Ready s (p.1 d a b ta tb) [a, b] [d] → ∃ t, exec (p.1 d a b ta tb) s = .next t ∧ WroteReg s t d (p.2 (s.gr a) (s.gr b)) := by
  simp only [otherOps2, List.forall_mem_cons]
  refine ⟨?fadd, ?fsub, ?fmul, ?fmin, ?fmax, ?fcmp, ?padd, ?ptag, nofun⟩ <;> intro d a b ta tb s h
  case fadd => exact wroteReg_of_binary exec_fadd rfl h
  case fsub => exact wroteReg_of_binary exec_fsub rfl h
  case fmul => exact wroteReg_of_binary exec_fmul rfl h
  case fmin => exact wroteReg_of_binary exec_fmin rfl h
  case fmax => exact wroteReg_of_binary exec_fmax rfl h
  case fcmp => exact wroteReg_of_binary exec_fcmp (congrArg _ (fcmpResult_eq _ _)) h
  case padd => exact wroteReg_of_binary exec_padd (withVa_add_eq_append _ _) h
  case ptag => exact wroteReg_of_binary exec_ptag (ofNat_tagged_eq_append _ _) h

/-- R234, R27: `pidx` of a pointer with good and with bad format fields. -/
theorem pidx_writes_or_traps (d a b : BitVec 5) (ta tb : BitVec 1) (s : State) (h : Ready s (.pidx d a b ta tb) [a, b] [d]) :
    (formatBad (s.gr a) false = false → ∃ t, exec (.pidx d a b ta tb) s = .next t ∧
      WroteReg s t d ((s.gr a).extractLsb' 56 8 ++
        BitVec.ofNat 56 ((s.gr a).toNat % 2 ^ 56 + (s.gr b).toNat * elemSize ((s.gr a).toNat / 2 ^ 59)))) ∧
    (formatBad (s.gr a) false = true → Handles s → ∃ t, exec (.pidx d a b ta tb) s = .next t ∧ TookTrap s t tFORMAT_FAULT s.cur.pc) := by
  have he := exec_pidx.trans (operands_ready (srcs := [(a, ta), (b, tb)]) h)
  refine ⟨fun hgood => ?_, fun hbad hh => ?_⟩
  · rw [if_neg (ne_true_of_eq_false hgood), withVa_index_eq_append] at he
    exact ⟨_, he, result_wroteReg s d [a, b] _⟩
  · rw [if_pos hbad] at he
    exact ⟨_, he, trap_tookTrap hh tFORMAT_FAULT⟩

/-- Settles O4: each form by the rule of its shape; the words of the FP64 instructions and the conversions are the library's own. -/
theorem floatAndPointerResults : Obligations.FloatAndPointerResults := by
  refine ⟨⟨otherOps2_write, ?fmadd, ?fdiv, ?cvtfi, ?cvtif, ?cvtffN, ?cvtffW, ?pstrip⟩, pidx_writes_or_traps⟩
  case fmadd =>
    intro d a b ta tb s h
    rw [exec_fmadd]
    exact ternary_ready h
  case fdiv =>
    intro d a b ta tb s h
    rw [exec_fdiv]
    exact binaryLate_ready h
  case cvtfi => exact fun _ _ _ _ h => wroteReg_of_unary exec_cvtfi rfl h
  case cvtif => exact fun _ _ _ _ h => wroteReg_of_unary exec_cvtif rfl h
  case cvtffN => exact fun _ _ _ _ _ h => wroteReg_of_unary exec_cvtffN rfl h
  case cvtffW => exact fun _ _ _ _ _ h => wroteReg_of_unary exec_cvtffW rfl h
  case pstrip => exact fun _ _ _ _ h => wroteReg_of_unary exec_pstrip (ofNat_ptrVa_eq_append _) h

end Sys2Proof.Claims
end
